-- ==== Sys2Proof/Word.lean ====
section
/-! DEFINITION. The word types of the block and the index types of its tracks and voice slots
(spec/00_scope.md R8, R12, R19; spec/20_memory.md R60). -/

namespace Sys2Proof

/-- One byte of WAVE, ENV or NOTE RAM, or of a drum sample. -/
abbrev Byte := BitVec 8

/-- One 32-bit bus word: the data of a transaction, a command word or an event word (R90). -/
abbrev Word := BitVec 32

/-- A 24-bit byte address of the host bus (R60, R61). -/
abbrev Addr := BitVec 24

/-- A track: 0 to 2 are melodic, 3 is percussion (R8, R19). -/
abbrev Track := Fin 4

/-- A melodic track, the only kind with an octave, a length, a waveform and an envelope (R30 to R34). -/
abbrev Melodic := Fin 3

/-- A voice slot of a track (R8). -/
abbrev Slot := Fin 24

/-- The track that a melodic track is. -/
def Melodic.track (m : Melodic) : Track := m.castSucc

/-- The percussion track (R19). -/
def percussion : Track := 3

end Sys2Proof
end

