-- ==== Sys2Proof/Syntax.lean ====
section
/-! DEFINITION. The instructions of the block (spec/30_encoding.md R90), one constructor for each mnemonic of
spec/opcode_table.json (rows that share a mnemonic are bit patterns of one instruction, R94, R99; log entry 8),
and the words that carry them. -/

namespace Sys2Proof

/-- The instructions. -/
inductive Instr where
  /-- RD: bus read of one word at a byte address (R120). -/
  | rd (a : Addr)
  /-- WR: bus write of one word at a byte address (R121). -/
  | wr (a : Addr) (d : Word)
  /-- NOP: command word 0 (R128). -/
  | nop
  /-- ARM: command word 1 (R129 to R131). -/
  | arm
  /-- DISARM: command word 2 (R132). -/
  | disarm
  /-- FRAME: command word 3 (R133, R134). -/
  | frame
  /-- CLRERR: command word 4 (R135). -/
  | clrerr
  /-- CMD.RSVD: any other command word (R94, R136). -/
  | cmdRsvd (w : Word)
  /-- EV: an event word with `PANF` = 0, of the track in whose NOTE RAM it stands (R95, R96). -/
  | ev (t : Track) (trig : BitVec 24)
  /-- EV.PAN: an event word with `PANF` 1 to 7 (R97). -/
  | evPan (t : Track) (trig : BitVec 24) (p : BitVec 8)
  /-- EV.RSVD: an event word with `PANF` 8 to 255 (R98). -/
  | evRsvd (t : Track) (trig : BitVec 24) (p : BitVec 8)
  deriving DecidableEq, Repr

/-- A bus transaction (dir, A, D) of R91; a read's D is what the block returns. -/
inductive BusTxn where
  | read (a : Addr)
  | write (a : Addr) (d : Word)
  deriving DecidableEq, Repr

/-- An instruction as words, with the place that fixes its kind (R90): a transaction on the bus (a command
word is the data of a write to CMD), or an event word in a track's NOTE RAM. -/
inductive Code where
  | bus (x : BusTxn)
  | event (t : Track) (w : Word)
  deriving DecidableEq, Repr

/-- Where the bytes of an instruction stand. -/
inductive Place where
  /-- a bus read: the bytes of A -/
  | busRead
  /-- a bus write: the bytes of A, then the bytes of D -/
  | busWrite
  /-- the data of a write to CMD -/
  | command
  /-- a word of a track's NOTE RAM -/
  | note (t : Track)
  deriving DecidableEq, Repr

end Sys2Proof
end

