-- ==== Sys2Proof/WellFormed.lean ====
section
/-! DEFINITION. Which terms of Instr the encodings of spec/30_encoding.md can express. -/

namespace Sys2Proof

/-- A write to 0x04 is the command its data is (R121, R127), a reserved command word is none of the five of
R93 (R94), and the pan field decides the form of an event word (R99). Everything else is bounded by its type. -/
def Instr.wellFormed : Instr → Bool
  | .rd _ => true
  | .wr a _ => a != 0x04
  | .nop => true
  | .arm => true
  | .disarm => true
  | .frame => true
  | .clrerr => true
  | .cmdRsvd w => decide (4 < w.toNat)
  | .ev _ _ => true
  | .evPan _ _ p => decide (1 ≤ p.toNat ∧ p.toNat ≤ 7)
  | .evRsvd _ _ p => decide (8 ≤ p.toNat)

end Sys2Proof
end

