-- ==== Sys2Proof/Decode.lean ====
section
/-! DEFINITION. The decoder and the encoder (spec/30_encoding.md). The kind of an instruction is fixed by where
its word goes, never by its bits (R90), so the decoder takes a word with its place. Decoding a word is total
(R107); bytes that are no whole word of their place are rejected by name. -/

namespace Sys2Proof

/-- The address of the CMD register (R68). -/
def cmdAddr : Addr := 0x04

/-- `TRIG`, bits [23:0] of an event word (R95). -/
def eventTrig (w : Word) : BitVec 24 := w.extractLsb' 0 24

/-- `PANF`, bits [31:24] of an event word (R95). -/
def eventPan (w : Word) : BitVec 8 := w.extractLsb' 24 8

/-- A command word (R92 to R94). -/
def decodeCommand (w : Word) : Instr :=
  if w = 0x00000000 then .nop
  else if w = 0x00000001 then .arm
  else if w = 0x00000002 then .disarm
  else if w = 0x00000003 then .frame
  else if w = 0x00000004 then .clrerr
  else .cmdRsvd w

/-- A bus transaction (R91); the data of a write to CMD is a command word (R90 (b), R121). -/
def decodeBus : BusTxn → Instr
  | .read a => .rd a
  | .write a d => if a = cmdAddr then decodeCommand d else .wr a d

/-- An event word of track t (R95 to R99). -/
def decodeEvent (t : Track) (w : Word) : Instr :=
  if eventPan w = 0 then .ev t (eventTrig w)
  else if (eventPan w).toNat ≤ 7 then .evPan t (eventTrig w) (eventPan w)
  else .evRsvd t (eventTrig w) (eventPan w)

/-- The instruction that a word is, by its place. -/
def decode : Code → Instr
  | .bus x => decodeBus x
  | .event t w => decodeEvent t w

/-- Why bytes are no instruction. -/
inductive DecodeError where
  /-- the bytes are not as many as the words of their place have -/
  | wrongLength
  deriving DecidableEq, Repr

/-- The number that bytes hold, least significant byte first (R64, R103). -/
def numOfBytes : List Byte → Nat
  | [] => 0
  | b :: bs => b.toNat + 256 * numOfBytes bs

/-- The k bytes of a number, least significant first (R64). -/
def bytesOfNum : Nat → Nat → List Byte
  | 0, _ => []
  | k + 1, n => BitVec.ofNat 8 n :: bytesOfNum k (n / 256)

/-- The code that bytes at a place are; none if they are too few or too many. -/
def codeOfBytes (p : Place) (bs : List Byte) : Option Code :=
  match p with
  | .busRead => if bs.length = 3 then some (.bus (.read (BitVec.ofNat 24 (numOfBytes bs)))) else none
  | .busWrite =>
    if bs.length = 7 then
      some (.bus (.write (BitVec.ofNat 24 (numOfBytes (bs.take 3))) (BitVec.ofNat 32 (numOfBytes (bs.drop 3)))))
    else none
  | .command =>
    if bs.length = 4 then some (.bus (.write cmdAddr (BitVec.ofNat 32 (numOfBytes bs)))) else none
  | .note t => if bs.length = 4 then some (.event t (BitVec.ofNat 32 (numOfBytes bs))) else none

/-- The decoder on bytes: total, and a wrong number of bytes is rejected by name. -/
def decodeBytes (p : Place) (bs : List Byte) : Except DecodeError Instr :=
  match codeOfBytes p bs with
  | some c => .ok (decode c)
  | none => .error .wrongLength

/-- The command word of a command (R93). -/
def commandWord : Instr → Word
  | .nop => 0x00000000
  | .arm => 0x00000001
  | .disarm => 0x00000002
  | .frame => 0x00000003
  | .clrerr => 0x00000004
  | .cmdRsvd w => w
  | .rd _ => 0
  | .wr _ d => d
  | .ev _ _ => 0
  | .evPan _ _ _ => 0
  | .evRsvd _ _ _ => 0

/-- An event word from its two fields (R95, R106). -/
def eventWord (trig : BitVec 24) (p : BitVec 8) : Word := p ++ trig

/-- The words of an instruction and their place (R91, R93, R95). -/
def encode : Instr → Code
  | .rd a => .bus (.read a)
  | .wr a d => .bus (.write a d)
  | .nop => .bus (.write cmdAddr (commandWord .nop))
  | .arm => .bus (.write cmdAddr (commandWord .arm))
  | .disarm => .bus (.write cmdAddr (commandWord .disarm))
  | .frame => .bus (.write cmdAddr (commandWord .frame))
  | .clrerr => .bus (.write cmdAddr (commandWord .clrerr))
  | .cmdRsvd w => .bus (.write cmdAddr (commandWord (.cmdRsvd w)))
  | .ev t trig => .event t (eventWord trig 0)
  | .evPan t trig p => .event t (eventWord trig p)
  | .evRsvd t trig p => .event t (eventWord trig p)

/-- The place of a code. -/
def Code.place : Code → Place
  | .bus (.read _) => .busRead
  | .bus (.write _ _) => .busWrite
  | .event t _ => .note t

/-- The bytes of a code: each word least significant byte first, the address word before the data word. -/
def Code.bytes : Code → List Byte
  | .bus (.read a) => bytesOfNum 3 a.toNat
  | .bus (.write a d) => bytesOfNum 3 a.toNat ++ bytesOfNum 4 d.toNat
  | .event _ w => bytesOfNum 4 w.toNat

/-- The place the host's table reading gives a word (log entry 6). The table gives RD the 24 bits of A, WR the 24
bits of A and the 32 of D, and every command and event word 32 bits that do not say their place: a 32-bit word is
read as an event word of track 0 where bits [31:24] are not zero, and as a command word where they are. -/
def tablePlace (nbits w : Nat) : Option Place :=
  if nbits = 24 then some .busRead
  else if nbits = 56 then some .busWrite
  else if nbits = 32 then some (if w < 16777216 then .command else .note 0)
  else none

/-- The instruction the decoder reads from a word of the opcode table: the word's bytes as the hardware holds
them, at the place `tablePlace` gives. -/
def decodeTableWord (nbits w : Nat) : Option Instr :=
  match tablePlace nbits w with
  | some p =>
    match decodeBytes p (bytesOfNum (nbits / 8) w) with
    | .ok i => some i
    | .error _ => none
  | none => none

end Sys2Proof
end

