-- ==== Sys2Proof/Config.lean ====
section
/-! DEFINITION. What one implementation of the block fixes (spec/00_scope.md R10): the parameters, the
constraints on them, the parameters of the machine that State.reset describes (opaque: legal, and nothing
else is known of them), and the free draw of every RAM cell at power-on (spec/10_state.md R49). -/

namespace Sys2Proof

/-- The parameters of R10, as plain data. `P_DRUM_COUNT` is the length of `drums`, and `P_DRUM_LEN[k]` the
length of its entry k. No rule reads `frameLatency` (R278). -/
structure Params where
  /-- `P_REF_RATE`, in samples per second. -/
  refRate : Nat
  /-- `P_FREQ_TABLE`, UQ8.24 waveform-table positions per synthesis-rate sample. -/
  freqTable : Vector Word 12
  /-- `P_PAN_TABLE`, in gain-curve units; entry 0 is never read. -/
  panTable : Vector Int 8
  /-- `P_DRUM_DATA`: the drum samples, unsigned bytes with 128 as the zero level. -/
  drums : List (List Byte)
  /-- `P_DRUM_MAP`: the drum sample of each percussion slot. -/
  drumMap : Vector Nat 24
  /-- `P_NOTE_DEPTH`: words of NOTE RAM per track. -/
  noteDepth : Nat
  /-- `P_FRAME_LATENCY`: clock cycles of a FRAME command. -/
  frameLatency : Nat
  deriving DecidableEq, Repr, Inhabited

/-- The constraints of R10 on the parameters. -/
abbrev Params.Valid (p : Params) : Prop :=
  1 ≤ p.refRate ∧
  p.panTable[4] = 0 ∧ p.panTable[1] < 0 ∧
  (∀ i : Fin 8, 1 ≤ i.val → p.panTable[1] ≤ p.panTable[i]) ∧
  1 ≤ p.drums.length ∧ (∀ d ∈ p.drums, d.length ≤ 2147483647) ∧
  (∀ n : Slot, p.drumMap[n] < p.drums.length) ∧
  1 ≤ p.noteDepth ∧ p.noteDepth ≤ 262144

/-- A smallest legal set of parameters. It serves only to make `Config.params` legal by definition. -/
def Params.smallest : Params where
  refRate := 1
  freqTable := Vector.replicate 12 0
  panTable := #v[0, -1, 0, 0, 0, 0, 0, 0]
  drums := [[]]
  drumMap := Vector.replicate 24 0
  noteDepth := 1
  frameLatency := 0

/-- The parameters some implementation chose (log entry 1): a constant without a body. -/
opaque Config.chosenParams : Params

/-- The parameters of the machine of State.reset: the chosen ones, which R10 says are legal. So every
legal set of parameters is possible here, and no illegal one. -/
def Config.params : Params :=
  if Config.chosenParams.Valid then Config.chosenParams else Params.smallest

/-- The power-on contents of RAM (R49, R272; log entry 2): the free draw of the cell at a bus byte
address, for each power-on of the machine. A constant without a body. -/
opaque Config.powerOnByte : Nat → Nat → Byte

end Sys2Proof
end

