-- ==== Sys2Proof/Machine/State.lean ====
section
/-! DEFINITION. The state of the block (spec/10_state.md R20 to R52), the reasons a step can stop, and the state
after reset (spec/70_reset_and_hazards.md R271). -/

namespace Sys2Proof.Machine

/-- The play state of one voice slot. -/
structure Voice where
  /-- `TIMER`: remaining lifetime, signed Q32.16 (R40). -/
  timer : BitVec 48
  /-- `PHASE`: waveform phase, UQ8.24 (R41). -/
  phase : BitVec 32
  /-- `FPHASE`: drum playback position, UQ32.16 (R42). -/
  fphase : BitVec 48
  deriving DecidableEq, Repr

/-- A slot as reset and ARM leave it: silent, at phase 0 (R130, R271). -/
def Voice.silent : Voice := ⟨0, 0, 0⟩

/-- One stereo frame at the output port (R60 (b), R75), two's complement. -/
structure Frame where
  left : BitVec 16
  right : BitVec 16
  deriving DecidableEq, Repr

/-- What the outside world does to the block, one event at a time. -/
inductive HostEvent where
  /-- The host issues a bus transaction (R60 (a)). -/
  | bus (x : BusTxn)
  /-- The platform drives the reset input: asserted (true) or released (R270). -/
  | resetInput (level : Bool)
  /-- The platform asserts reset while a transaction is in flight (R270). -/
  | resetDuring (x : BusTxn)
  /-- The platform cycles the power, which asserts reset (R270, R272). -/
  | powerOn
  deriving DecidableEq, Repr

/-- The machine. Every field up to `outR` is the spec's; the fields after it are the model's own (log entries 1 to
5) and INVENTORY.md lists them so. -/
structure State where
  /-- `POS` (R21), signed. -/
  pos : Word
  /-- `READY` (R22). -/
  ready : Bool
  /-- `ERR_ADDR` (R23). -/
  errAddr : Bool
  /-- `ERR_LOCK` (R23). -/
  errLock : Bool
  /-- `ERR_CMD` (R23). -/
  errCmd : Bool
  /-- `ERR_CFG` (R23). -/
  errCfg : Bool
  /-- `ERR_PAN` (R23). -/
  errPan : Bool
  /-- `ERR_CAUSE` (R24). -/
  errCause : BitVec 8
  /-- `ERR_INFO` (R24). -/
  errInfo : Word
  /-- `SAMPLE_RATE` (R25), unsigned. -/
  sampleRate : Word
  /-- `TICK_MS` (R26), signed. -/
  tickMs : Word
  /-- `REPEAT_TICK` (R27), signed. -/
  repeatTick : Word
  /-- `END_TICK` (R28), signed. -/
  endTick : Word
  /-- `RECORD_COUNT` (R29), signed. -/
  recordCount : Word
  /-- `OCTAVE[0..2]` (R30), unsigned. -/
  octave : Vector (BitVec 8) 3
  /-- `LENGTH[0..2]` (R31), signed. -/
  length : Vector Word 3
  /-- `VOLUME[0..3]` (R32), signed. -/
  volume : Vector Word 4
  /-- WAVE, ENV and NOTE RAM (R33 to R35): the bytes written since power-on, by rising bus byte address. -/
  mem : List Host.Cell
  /-- `TINC` (R37), UQ16.16. -/
  tinc : Word
  /-- `SPT` (R38), unsigned. -/
  spt : BitVec 64
  /-- `CD` (R39), unsigned. -/
  cd : BitVec 64
  /-- `TIMER`, `PHASE` and `FPHASE` of every track's slots (R40 to R42). -/
  voices : Vector (Vector Voice 24) 4
  /-- `VMIX[0..3]` (R43), UQ1.15. -/
  vmix : Vector (BitVec 16) 4
  /-- `VMIXLOW` (R44), UQ1.15. -/
  vmixLow : BitVec 16
  /-- `VL[0..3]` (R45), UQ1.15. -/
  vl : Vector (BitVec 16) 4
  /-- `VR[0..3]` (R45), UQ1.15. -/
  vr : Vector (BitVec 16) 4
  /-- `ACC_L` (R46), signed. -/
  accL : BitVec 16
  /-- `ACC_R` (R46), signed. -/
  accR : BitVec 16
  /-- `OUT_L` (R47), signed. -/
  outL : BitVec 16
  /-- `OUT_R` (R47), signed. -/
  outR : BitVec 16
  /-- Model's own: the parameters of R10, which no step changes (R48; log entry 1). -/
  params : Params
  /-- Model's own: which power-on the RAM contents date from (R49, R272; log entry 2). -/
  powerEpoch : Nat
  /-- Model's own: whether the reset input is asserted (R270; log entry 4). -/
  resetLine : Bool
  /-- Model's own: what the host and the platform do next, oldest first (log entry 3). -/
  inbox : List HostEvent
  /-- Model's own: the read data the bus returned in the latest step (R60 (a); log entry 5). -/
  readData : Option Word
  /-- Model's own: the strobes of the frame output port in the latest step (R75; log entry 5). -/
  framePort : List Frame
  deriving DecidableEq, Repr

/-- Faults: none. No condition stops the block (R240), and spec/93_implementation_defined.md says that a model treats
no open behaviour as a fault or a stuck state (log entry 16). -/
inductive Fault where
  deriving DecidableEq, Repr

/-- Why a step has no meaning. -/
inductive Refusal where
  /-- Raised by an arm of `exec` whose instruction has no meaning yet. Safe: the run stops. No arm raises it. -/
  | notModelled (mnemonic : String)
  deriving DecidableEq, Repr

/-- The machine of parameters p right after its first power-on reset (R271), the reset input released, nothing
issued by the host. RAM is not cleared: no cell has been written (R272). -/
def State.resetWith (p : Params) : State where
  pos := 0
  ready := false
  errAddr := false
  errLock := false
  errCmd := false
  errCfg := false
  errPan := false
  errCause := 0
  errInfo := 0
  sampleRate := 0
  tickMs := 0
  repeatTick := 0
  endTick := 0
  recordCount := 0
  octave := Vector.replicate 3 0
  length := Vector.replicate 3 0
  volume := Vector.replicate 4 0
  mem := []
  tinc := 0
  spt := 0
  cd := 0
  voices := Vector.replicate 4 (Vector.replicate 24 Voice.silent)
  vmix := Vector.replicate 4 0
  vmixLow := 0
  vl := Vector.replicate 4 32768
  vr := Vector.replicate 4 32768
  accL := 0
  accR := 0
  outL := 0
  outR := 0
  params := p
  powerEpoch := 0
  resetLine := false
  inbox := []
  readData := none
  framePort := []

/-- The machine right after reset (R271). -/
def State.reset : State := State.resetWith Config.params

end Sys2Proof.Machine
end

