-- ==== Sys2Proof/Machine/Flags.lean ====
section
/-! DEFINITION. The status flags: the cause codes (spec/60_exceptions.md R242), the sticky error flags
(spec/10_state.md R23) and the STATUS word (spec/20_memory.md R68). -/

namespace Sys2Proof.Machine

/-- The causes of R242. -/
inductive ErrorCause where
  /-- 1: bad address (R243) -/
  | addr
  /-- 2: locked (R244) -/
  | lock
  /-- 3: reserved command (R245) -/
  | cmd
  /-- 4: ARM refused (R246) -/
  | cfg
  /-- 5: reserved pan (R247) -/
  | pan
  deriving DecidableEq, Repr

/-- The cause code of R242. -/
def ErrorCause.code : ErrorCause → BitVec 8
  | .addr => 1
  | .lock => 2
  | .cmd => 3
  | .cfg => 4
  | .pan => 5

/-- The sticky flag of a cause (R23). -/
def State.errorFlag (s : State) : ErrorCause → Bool
  | .addr => s.errAddr
  | .lock => s.errLock
  | .cmd => s.errCmd
  | .cfg => s.errCfg
  | .pan => s.errPan

/-- Sets the sticky flag of a cause and no other (R23, R241). -/
def State.setErrorFlag (c : ErrorCause) (s : State) : State :=
  match c with
  | .addr => { s with errAddr := true }
  | .lock => { s with errLock := true }
  | .cmd => { s with errCmd := true }
  | .cfg => { s with errCfg := true }
  | .pan => { s with errPan := true }

/-- A flag as a bit of a word. -/
def flagBit (b : Bool) (k : Nat) : Word := if b then BitVec.ofNat 32 (2 ^ k) else 0

/-- STATUS: READY in bit 0, the flag of cause c in bit c, the rest 0 (R68). -/
def State.statusWord (s : State) : Word :=
  flagBit s.ready 0 ||| flagBit s.errAddr 1 ||| flagBit s.errLock 2 ||| flagBit s.errCmd 3 |||
    flagBit s.errCfg 4 ||| flagBit s.errPan 5

end Sys2Proof.Machine
end

