-- ==== Sys2Proof/Machine/Ops.lean ====
section
/-! DEFINITION. The operations the meanings share: arithmetic of spec/00_scope.md R13, memory (spec/10_state.md
R33 to R35, R49), voice slots, raising an error (spec/60_exceptions.md R241) and clearing errors (R251), the frame
port (spec/20_memory.md R75) and the reset input (spec/70_reset_and_hazards.md R270 to R272). -/

namespace Sys2Proof.Machine

/-! ## Arithmetic (R13) -/

/-- `clamp(x, lo, hi)`. -/
def clamp (x lo hi : Int) : Int := if x < lo then lo else if hi < x then hi else x

/-- `sat16(x)` (R13, R223). -/
def sat16 (x : Int) : Int := clamp x (-32768) 32767

/-- `x >> k`: floor(x / 2^k). -/
def floorShift (x : Int) (k : Nat) : Int := x / (2 ^ k : Int)

/-! ## Loop ranges (R13: ascending, and the order is part of the meaning) -/

/-- `for t in 0..3`. -/
def tracks : List Track := List.finRange 4

/-- `for n in 0..23`. -/
def slots : List Slot := List.finRange 24

/-! ## Memory -/

/-- The byte written last at an address, if any has been. -/
def Memory.lookup : List Host.Cell → Nat → Option Byte
  | [], _ => none
  | (k, v) :: m, a => if k = a then some v else Memory.lookup m a

/-- Writes one byte, keeping addresses strictly rising. -/
def Memory.write : List Host.Cell → Nat → Byte → List Host.Cell
  | [], a, b => [(a, b)]
  | (k, v) :: m, a, b =>
    if a < k then (a, b) :: (k, v) :: m
    else if a = k then (a, b) :: m
    else (k, v) :: Memory.write m a b

/-- The canonical form: strictly rising addresses. What an unlisted address holds is no value at this level (no
byte has been written there), so no entry can equal it (log entry 2). -/
def Memory.wf : List Host.Cell → Bool
  | [] => true
  | [_] => true
  | (k, _) :: (k', v') :: m => decide (k < k') && Memory.wf ((k', v') :: m)

/-- The byte of RAM at a bus byte address: the one written last, else the cell's free draw (R49). -/
def State.ramByte (s : State) (a : Nat) : Byte :=
  (Memory.lookup s.mem a).getD (Config.powerOnByte s.powerEpoch a)

/-- The 32-bit word of RAM at a bus byte address, little-endian (R64, R70, R71). -/
def State.ramWord (s : State) (a : Nat) : Word :=
  s.ramByte (a + 3) ++ s.ramByte (a + 2) ++ s.ramByte (a + 1) ++ s.ramByte a

/-- Writes the four bytes of a 32-bit word, little-endian (R64). -/
def Memory.writeWord (m : List Host.Cell) (a : Nat) (d : Word) : List Host.Cell :=
  Memory.write
    (Memory.write (Memory.write (Memory.write m a (d.extractLsb' 0 8)) (a + 1) (d.extractLsb' 8 8))
      (a + 2) (d.extractLsb' 16 8))
    (a + 3) (d.extractLsb' 24 8)

/-- Stores all four bytes of a 32-bit word of RAM (R66, R125). -/
def State.writeRamWord (a : Nat) (d : Word) (s : State) : State :=
  { s with mem := Memory.writeWord s.mem a d }

/-- The bus byte address of `WAVE[m][i]` (R70). -/
def waveAddr (m : Melodic) (i : Nat) : Nat := 0x1000 + 0x100 * m.val + i

/-- The bus byte address of `ENV[m][i]` (R70). -/
def envAddr (m : Melodic) (i : Nat) : Nat := 0x2000 + 0x40 * m.val + i

/-- The bus byte address of `NOTE[t][j]` (R71). -/
def noteAddr (t : Track) (j : Nat) : Nat := 0x100000 + 0x100000 * t.val + 4 * j

/-- `WaveRead(m, i)` (R15). -/
def State.waveRead (s : State) (m : Melodic) (i : Nat) : Int := (s.ramByte (waveAddr m i)).toInt

/-- `EnvRead(m, i)` (R15). -/
def State.envRead (s : State) (m : Melodic) (i : Nat) : Int := (s.ramByte (envAddr m i)).toNat

/-- `NoteRead(t, j)` (R15). -/
def State.noteRead (s : State) (t : Track) (j : Nat) : Word := s.ramWord (noteAddr t j)

/-! ## The drum bank (R10, R36), constant -/

/-- The drum sample of percussion slot n: `P_DRUM_DATA[P_DRUM_MAP[n]]`. -/
def State.drumSample (s : State) (n : Slot) : List Byte := s.params.drums.getD s.params.drumMap[n] []

/-- `P_DRUM_LEN[P_DRUM_MAP[n]]`. -/
def State.drumLen (s : State) (n : Slot) : Nat := (s.drumSample n).length

/-! ## Voice slots -/

/-- The play state of slot n of track t. -/
def State.voice (s : State) (t : Track) (n : Slot) : Voice := s.voices[t][n]

/-- Replaces the play state of slot n of track t. -/
def State.setVoice (t : Track) (n : Slot) (v : Voice) (s : State) : State :=
  { s with voices := s.voices.set t.val (s.voices[t].set n.val v) }

/-- The melodic track that a track is, if it is one (R19). -/
def melodicOf (t : Track) : Option Melodic := if h : t.val < 3 then some ⟨t.val, h⟩ else none

/-! ## The error record -/

/-- `raise Error(c, info)` (R241): the block's one way to take an error. It saves the first cause and its
information word, sets the sticky flag, and returns to the rule that called it. -/
def State.raiseError (c : ErrorCause) (info : Word) (s : State) : State :=
  let s := s.setErrorFlag c
  if s.errCause = 0 then { s with errCause := c.code, errInfo := info } else s

/-- Clears the sticky flags and the record (R135, R251). -/
def State.clearErrors (s : State) : State :=
  { s with
    errAddr := false, errLock := false, errCmd := false, errCfg := false, errPan := false,
    errCause := 0, errInfo := 0 }

/-! ## The frame output port -/

/-- Strobes the port once with (`OUT_L`, `OUT_R`) (R75, R225). -/
def State.strobe (s : State) : State := { s with framePort := s.framePort ++ [⟨s.outL, s.outR⟩] }

/-! ## Reset -/

/-- The reset of R271: every register to its reset value. RAM, the parameters and what the outside world does next are
not registers and stay (R272). -/
def State.resetRegisters (s : State) : State :=
  { State.resetWith s.params with
    mem := s.mem, powerEpoch := s.powerEpoch, resetLine := s.resetLine, inbox := s.inbox }

/-- The reset input goes to a level: asserted, the reset happens (R270). -/
def State.driveReset (level : Bool) (s : State) : State :=
  if level then { s.resetRegisters with resetLine := true } else { s with resetLine := false }

/-- The power comes up: the reset is asserted and every RAM cell takes a new free draw (R270, R272). -/
def State.cyclePower (s : State) : State :=
  { s.driveReset true with mem := [], powerEpoch := s.powerEpoch + 1 }

/-- A transaction while reset is asserted: a read returns 0, nothing else happens (R270). -/
def State.ignoreTxn (x : BusTxn) (s : State) : State :=
  match x with
  | .read _ => { s with readData := some 0 }
  | .write _ _ => s

end Sys2Proof.Machine
end

