-- ==== Sys2Proof/Machine/Gain.lean ====
section
/-! DEFINITION. The gain curve (spec/00_scope.md R14; spec/41_sequencer.md R158 to R161) and the values ARM derives
from the configuration (R151, R152), in exact integer arithmetic. -/

namespace Sys2Proof.Machine

/-- The divisor of the gain curve's exponent (R9). -/
def gainDivisor : Nat := 2000

/-- Whether 2 g - 1 <= 65536 x 10^(-k / 2000), that is, whether g - 1/2 is at most 32768 x 10^(-k / 2000); both sides
raised to the power of the divisor, so that the comparison is one of integers (R14; log entry 12). -/
def gainFits (k g : Nat) : Bool := 
  decide ((2 * g - 1) ^ gainDivisor * 10 ^ k ≤ 65536 ^ gainDivisor)

/-- The greatest g that fits, found bit by bit from bit b - 1 down. -/
def gainSearch (k : Nat) : Nat → Nat → Nat
  | 0, g => g
  | b + 1, g => gainSearch k b (if gainFits k (g + 2 ^ b) then g + 2 ^ b else g)

/-- `GAIN(m)` = round(32768 x 10^(m / 2000)) for -10000 <= m <= 0 (R14). Rounding to nearest has no ties, so it is
the greatest g with g - 1/2 at most the exact value. -/
def gain (m : Int) : Nat := gainSearch (-m).toNat 16 0

/-- `GAIN` of an argument clamped into its domain, as a UQ1.15 register value. -/
def gainReg (m : Int) : BitVec 16 := BitVec.ofNat 16 (gain (clamp m (-10000) 0))

/-- `Mb(v)`, exact (R158). -/
def mb (v : Int) : Int := clamp ((v - 300) * 8) (-10000) 0

/-- The loudness multiplier of a volume: `GAIN(Mb(v))` (R159). -/
def volumeGain (v : Word) : BitVec 16 := gainReg (mb v.toInt)

/-- The low multiplier of the percussion volume: `GAIN(Mb(tdiv(7 x v, 10)))` (R160). -/
def volumeGainLow (v : Word) : BitVec 16 := gainReg (mb ((7 * v.toInt).tdiv 10))

/-- `tinc` of R151, before it is checked. -/
def tincOf (refRate : Nat) (rate : Word) : Nat := refRate * 65536 / rate.toNat

/-- `SptOf(fs, ms)` (R152). -/
def sptOf (rate tickMs : Word) : Int := max 1 (((rate.toNat : Int) * tickMs.toInt).tdiv 1000)

end Sys2Proof.Machine
end

