-- ==== Sys2Proof/Machine/Sequencer.lean ====
section
/-! DEFINITION. The sequencer tick unit (spec/41_sequencer.md): triggers, gain and pan, the event words EV, EV.PAN
and EV.RSVD, the timeline, the tick and the tick check of every frame. -/

namespace Sys2Proof.Machine

/-! ## What an event word does -/

/-- A slot as a trigger leaves it: R156 on a melodic track, R157 on the percussion track. -/
def State.triggerVoice (s : State) (t : Track) (n : Slot) : Voice :=
  match melodicOf t with
  | some m => ⟨BitVec.ofInt 48 (s.length[m].toInt * 65536), 0, 0⟩
  | none => ⟨BitVec.ofNat 48 (s.drumLen n * 65536), 0, 0⟩

/-- `Trigger(t, n)` (R155). -/
def State.trigger (t : Track) (n : Slot) (s : State) : State := s.setVoice t n (s.triggerVoice t n)

/-- Triggers every slot whose bit is set, in ascending order (R96, R153, R155). -/
def State.applyTriggers (t : Track) (trig : BitVec 24) (s : State) : State :=
  slots.foldl (fun s n => if trig.getLsbD n.val then s.trigger t n else s) s

/-- Recomputes `VMIX[t]` (R159) and, with track 3, `VMIXLOW` (R160). -/
def State.recomputeGains (t : Track) (s : State) : State :=
  let s := { s with vmix := s.vmix.set t.val (volumeGain s.volume[t]) }
  if t = percussion then { s with vmixLow := volumeGainLow s.volume[t] } else s

/-- Sets the pan multipliers of a track from a pan table entry q (R161): a negative q attenuates the right channel, a
positive q the left. -/
def State.setPan (t : Track) (q : Int) (s : State) : State :=
  { s with vl := s.vl.set t.val (gainReg (-q)), vr := s.vr.set t.val (gainReg q) }

/-- `P_PAN_TABLE[p]`; only indices 1 to 7 are read (R161). -/
def State.panEntry (s : State) (p : BitVec 8) : Int :=
  if h : p.toNat < 8 then s.params.panTable[p.toNat] else 0

/-- The part every event word has: its triggers, then the gains of its track (R153). -/
def State.eventCommon (t : Track) (trig : BitVec 24) (s : State) : State :=
  (s.applyTriggers t trig).recomputeGains t

/-- EV: no pan change this tick (R97, R153). -/
def State.runEv (t : Track) (trig : BitVec 24) (s : State) : State := s.eventCommon t trig

/-- EV.PAN: triggers as EV, then the pan update of index p (R97, R153, R161). -/
def State.runEvPan (t : Track) (trig : BitVec 24) (p : BitVec 8) (s : State) : State :=
  let s := s.eventCommon t trig
  s.setPan t (s.panEntry p)

/-- EV.RSVD: triggers as EV, pan unchanged, cause 5 with t x 256 + p (R98, R153, R162). -/
def State.runEvRsvd (t : Track) (trig : BitVec 24) (p : BitVec 8) (s : State) : State :=
  (s.eventCommon t trig).raiseError .pan (BitVec.ofNat 32 (t.val * 256 + p.toNat))

/-- EV. -/
def execEv (t : Track) (trig : BitVec 24) (s : State) : Host.Outcome State Fault Refusal :=
  .next (s.runEv t trig)

/-- EV.PAN. -/
def execEvPan (t : Track) (trig : BitVec 24) (p : BitVec 8) (s : State) :
    Host.Outcome State Fault Refusal :=
  .next (s.runEvPan t trig p)

/-- EV.RSVD. -/
def execEvRsvd (t : Track) (trig : BitVec 24) (p : BitVec 8) (s : State) :
    Host.Outcome State Fault Refusal :=
  .next (s.runEvRsvd t trig p)

/-- One event word of track t, by its pan field (R97 to R99, R161). -/
def State.runEvent (t : Track) (w : Word) (s : State) : State :=
  if eventPan w = 0 then s.runEv t (eventTrig w)
  else if (eventPan w).toNat ≤ 7 then s.runEvPan t (eventTrig w) (eventPan w)
  else s.runEvRsvd t (eventTrig w) (eventPan w)

/-! ## The tick -/

/-- `EventAt(t)` (R154): the event word at `POS`, or no event outside [0, `RECORD_COUNT`). -/
def State.eventAt (s : State) (t : Track) : Word :=
  if 0 ≤ s.pos.toInt ∧ s.pos.toInt < s.recordCount.toInt then s.noteRead t s.pos.toNat else 0

/-- `AdvancePos()` (R163). -/
def State.advancePos (s : State) : State :=
  let np := s.pos.toInt + 1
  { s with pos := if s.endTick.toInt ≤ np then s.repeatTick else BitVec.ofInt 32 np }

/-- `Tick()` (R153): one event word per track, in track order, then the timeline advances. -/
def State.tick (s : State) : State :=
  (tracks.foldl (fun s t => s.runEvent t (s.eventAt t)) s).advancePos

/-- `TickCheck()`, run first in every rendered frame (R150). -/
def State.tickCheck (s : State) : State :=
  let s := if s.cd = 0 then { s.tick with cd := s.tick.spt } else s
  { s with cd := s.cd - 1 }

end Sys2Proof.Machine
end

