-- ==== Sys2Proof/Machine/Render.lean ====
section
/-! DEFINITION. The voice engines and the mixer: the voice timer and the melodic voice
(spec/42_melodic_voice.md), the percussion voice (spec/43_percussion_voice.md), the frame procedure and the
saturating mixer (spec/44_mixer.md). -/

namespace Sys2Proof.Machine

/-! ## The voice timer (R180) -/

/-- `TimerStep`: the slot after the step, and whether it is LIVE. -/
def timerStep (tinc : Word) (v : Voice) : Voice × Bool :=
  if v.timer.toInt ≤ 0 then (v, false)
  else
    let left := v.timer.toInt - tinc.toNat
    ({ v with timer := BitVec.ofInt 48 left }, decide (0 < left))

/-! ## The melodic voice (R181 to R189) -/

/-- `EnvIndex` (R182), from the decremented timer. -/
def envIndex (length : Word) (timer : BitVec 48) : Nat :=
  let len16 := length.toInt * 65536
  let elapsed := len16 - timer.toInt
  (clamp (64 * elapsed / len16) 0 63).toNat

/-- f(t, n) of R184: the base step of the slot's pitch class, shifted left by the octave, halved for slots 12 to 23. -/
def baseStep (freqTable : Vector Word 12) (octave : BitVec 8) (n : Slot) : Nat :=
  (freqTable[n.val % 12]'(Nat.mod_lt _ (by decide))).toNat * 2 ^ octave.toNat /
    (if 12 ≤ n.val then 2 else 1)

/-- `PStep(t, n)` (R184). -/
def phaseStep (p : Params) (octave : BitVec 8) (rate : Word) (n : Slot) : Word :=
  BitVec.ofNat 32 (baseStep p.freqTable octave n * p.refRate / rate.toNat)

/-- i0 of R186: the integer phase. -/
def tap0 (phase : Word) : Nat := (phase.extractLsb' 24 8).toNat

/-- i1 of R186: the tap at the octave-shift stride. -/
def tap1 (octave : BitVec 8) (phase : Word) : Nat := (tap0 phase + 2 ^ octave.toNat % 256) % 256

/-- fr of R187: bits [23:8] of the phase. -/
def phaseFraction (phase : Word) : Nat := (phase.extractLsb' 8 16).toNat

/-- Linear interpolation, exact, Q8.16 (R188, R203). -/
def interp (w0 w1 : Int) (fr : Nat) : Int := w0 * 65536 + (w1 - w0) * fr

/-- One channel of a melodic contribution (R189). -/
def melodicMix (x e : Int) (vmix pan : BitVec 16) : Int := floorShift (x * e * vmix.toNat * pan.toNat) 46

/-- `MelodicVoice(m, n)` (R181) of a slot found LIVE, v after its timer step: the slot afterwards and the
contribution (CL, CR). -/
def State.melodicVoice (s : State) (m : Melodic) (n : Slot) (v : Voice) : Voice × (Int × Int) :=
  let e := s.envRead m (envIndex s.length[m] v.timer)
  let phase := v.phase + phaseStep s.params s.octave[m] s.sampleRate n
  let x := interp (s.waveRead m (tap0 phase)) (s.waveRead m (tap1 s.octave[m] phase)) (phaseFraction phase)
  ({ v with phase := phase },
    (melodicMix x e s.vmix[m.track] s.vl[m.track], melodicMix x e s.vmix[m.track] s.vr[m.track]))

/-! ## The percussion voice (R200 to R205) -/

/-- The two centred drum bytes at position ip, the zero level past the end (R202). -/
def drumFetch (drum : List Byte) (ip : Nat) : Int × Int :=
  (((drum.getD ip 128).toNat : Int) - 128, ((drum.getD (ip + 1) 128).toNat : Int) - 128)

/-- The gain of a percussion slot, by the parity of its number (R204). -/
def State.drumGain (s : State) (n : Slot) : BitVec 16 :=
  if n.val % 2 = 1 then s.vmixLow else s.vmix[percussion]

/-- One channel of a percussion contribution (R205). -/
def percussionMix (x : Int) (g pan : BitVec 16) : Int := floorShift (x * g.toNat * pan.toNat) 38

/-- `PercVoice(n)` (R200) of a slot found LIVE: the slot afterwards and the contribution, none past the end of the
sample (R201). -/
def State.percussionVoice (s : State) (n : Slot) (v : Voice) : Voice × Option (Int × Int) :=
  let fphase := BitVec.ofNat 48 (v.fphase.toNat + s.tinc.toNat)
  let drum := s.drumSample n
  let ip := fphase.toNat / 65536
  let taps := drumFetch drum ip
  let x := interp taps.1 taps.2 (fphase.toNat % 65536)
  let g := s.drumGain n
  ({ v with fphase := fphase },
    if drum.length ≤ ip then none
    else some (percussionMix x g s.vl[percussion], percussionMix x g s.vr[percussion]))

/-! ## The frame procedure and the mixer (R220 to R225) -/

/-- What one frame does to slot n of track t, from the state the slot finds: the slot afterwards, and its contribution
if it is LIVE and not past its end (R180, R181, R200, R220). -/
def State.slotStep (s : State) (t : Track) (n : Slot) : Voice × Option (Int × Int) :=
  let stepped := timerStep s.tinc (s.voice t n)
  if stepped.2 then
    match melodicOf t with
    | some m => ((s.melodicVoice m n stepped.1).1, some (s.melodicVoice m n stepped.1).2)
    | none => s.percussionVoice n stepped.1
  else (stepped.1, none)

/-- One accumulator after one contribution (R223). -/
def addSat (acc : BitVec 16) (c : Int) : BitVec 16 := BitVec.ofInt 16 (sat16 (acc.toInt + c))

/-- Adds a contribution to both accumulators, each sum saturated (R220, R223). -/
def State.accumulate (c : Int × Int) (s : State) : State :=
  { s with accL := addSat s.accL c.1, accR := addSat s.accR c.2 }

/-- One slot of a frame (R220). -/
def State.renderSlot (t : Track) (n : Slot) (s : State) : State :=
  match s.slotStep t n with
  | (v, none) => s.setVoice t n v
  | (v, some c) => (s.setVoice t n v).accumulate c

/-- Every slot of a track, in slot order (R220). -/
def State.renderTrack (t : Track) (s : State) : State :=
  slots.foldl (fun s n => s.renderSlot t n) s

/-- Every voice of the block, in track order, into cleared accumulators (R220, R221). -/
def State.renderVoices (s : State) : State :=
  tracks.foldl (fun s t => s.renderTrack t) { s with accL := 0, accR := 0 }

/-- `OUT_L <- ACC_L; OUT_R <- ACC_R` (R224). -/
def State.latch (s : State) : State := { s with outL := s.accL, outR := s.accR }

/-- `RenderFrame()` (R220). -/
def State.renderFrame (s : State) : State := s.tickCheck.renderVoices.latch.strobe

end Sys2Proof.Machine
end

