-- ==== Sys2Proof/Machine/Commands.lean ====
section
/-! DEFINITION. The commands (spec/40_host_bus.md R127 to R136). -/

namespace Sys2Proof.Machine

/-- NOP (R128). -/
def execNop (s : State) : Host.Outcome State Fault Refusal := .next s

/-- The fail mask of the configuration check (R129): bit 0 `SAMPLE_RATE` = 0, bit 1 `TINC` out of range (not looked
at when bit 0 is set), bit 2 `RECORD_COUNT` out of range. -/
def State.armFailMask (s : State) : Word :=
  (if s.sampleRate = 0 then 1
    else if tincOf s.params.refRate s.sampleRate = 0 ∨
        4294967296 ≤ tincOf s.params.refRate s.sampleRate then 2
    else 0) |||
  (if s.recordCount.toInt < 0 ∨ (s.params.noteDepth : Int) < s.recordCount.toInt then 4 else 0)

/-- The initialisation of a successful ARM (R130). -/
def State.armInit (s : State) : State :=
  { s with
    tinc := BitVec.ofNat 32 (tincOf s.params.refRate s.sampleRate)
    spt := BitVec.ofInt 64 (sptOf s.sampleRate s.tickMs)
    pos := 0
    cd := 0
    voices := Vector.replicate 4 (Vector.replicate 24 Voice.silent)
    vl := Vector.replicate 4 32768
    vr := Vector.replicate 4 32768
    vmix := Vector.ofFn fun t => volumeGain s.volume[t]
    vmixLow := volumeGainLow s.volume[percussion]
    ready := true }

/-- ARM (R129 to R131): the check first, whatever `READY` is; then the initialisation, or cause 4 and nothing else. -/
def execArm (s : State) : Host.Outcome State Fault Refusal :=
  if s.armFailMask = 0 then .next s.armInit else .next (s.raiseError .cfg s.armFailMask)

/-- DISARM (R132). -/
def execDisarm (s : State) : Host.Outcome State Fault Refusal := .next { s with ready := false }

/-- FRAME (R133, R134): one frame, or a frame of silence while the block is not ready. -/
def execFrame (s : State) : Host.Outcome State Fault Refusal :=
  if s.ready then .next s.renderFrame else .next { s with outL := 0, outR := 0 }.strobe

/-- CLRERR (R135, R251). -/
def execClrerr (s : State) : Host.Outcome State Fault Refusal := .next s.clearErrors

/-- A reserved command word (R94, R136). -/
def execCmdRsvd (w : Word) (s : State) : Host.Outcome State Fault Refusal := .next (s.raiseError .cmd w)

/-- `Execute(d)`: what a write of d to CMD does (R127). -/
def executeCommand (d : Word) (s : State) : Host.Outcome State Fault Refusal :=
  if d = 0x00000000 then execNop s
  else if d = 0x00000001 then execArm s
  else if d = 0x00000002 then execDisarm s
  else if d = 0x00000003 then execFrame s
  else if d = 0x00000004 then execClrerr s
  else execCmdRsvd d s

end Sys2Proof.Machine
end

