-- ==== Sys2Proof/Machine/Operands.lean ====
section
/-! DEFINITION. The operand of a bus access: what an address selects (spec/20_memory.md R65 to R73), what reading it
gives (spec/40_host_bus.md R126) and what storing to it does (R123 to R125). -/

namespace Sys2Proof.Machine

/-- A word of a slot's block in the voice window (R72). -/
inductive VoiceField where
  | timerLo
  | timerHi
  | phase
  | fphaseLo
  | fphaseHi
  deriving DecidableEq, Repr

/-- What a word-aligned address selects (R67 to R72). -/
inductive Target where
  | id
  | cmd
  | status
  | sampleRate
  | tickMs
  | repeatTick
  | endTick
  | recordCount
  | pos
  | tinc
  | sptLo
  | sptHi
  | cdLo
  | cdHi
  | outFrame
  | errCause
  | errInfo
  | noteDepth
  | octave (m : Melodic)
  | length (m : Melodic)
  | volume (t : Track)
  | vmix (t : Track)
  | vmixLow
  | volLeft (t : Track)
  | volRight (t : Track)
  /-- word j of a track's WAVE RAM -/
  | wave (m : Melodic) (j : Nat)
  /-- word j of a track's ENV RAM -/
  | env (m : Melodic) (j : Nat)
  | voice (t : Track) (n : Slot) (f : VoiceField)
  /-- word j of a track's NOTE RAM -/
  | note (t : Track) (j : Nat)
  | reserved
  deriving DecidableEq, Repr

/-- Control and status registers, by offset (R68). -/
def controlTarget (a : Nat) : Target :=
  match a with
  | 0x00 => .id
  | 0x04 => .cmd
  | 0x08 => .status
  | 0x0C => .sampleRate
  | 0x10 => .tickMs
  | 0x14 => .repeatTick
  | 0x18 => .endTick
  | 0x1C => .recordCount
  | 0x20 => .pos
  | 0x24 => .tinc
  | 0x28 => .sptLo
  | 0x2C => .sptHi
  | 0x30 => .cdLo
  | 0x34 => .cdHi
  | 0x38 => .outFrame
  | 0x3C => .errCause
  | 0x40 => .errInfo
  | 0x44 => .noteDepth
  | _ => .reserved

/-- Track registers of track t, by offset (R69). -/
def trackTarget (t : Track) (off : Nat) : Target :=
  match off with
  | 0x00 => match melodicOf t with
    | some m => .octave m
    | none => .reserved
  | 0x04 => match melodicOf t with
    | some m => .length m
    | none => .reserved
  | 0x08 => .volume t
  | 0x0C => .vmix t
  | 0x10 => if t = percussion then .vmixLow else .reserved
  | 0x14 => .volLeft t
  | 0x18 => .volRight t
  | _ => .reserved

/-- The voice window of track t, by offset: 24 blocks of 0x20 bytes, five words each (R72). -/
def voiceTarget (t : Track) (off : Nat) : Target :=
  if h : off / 0x20 < 24 then
    match off % 0x20 with
    | 0x00 => .voice t ⟨off / 0x20, h⟩ .timerLo
    | 0x04 => .voice t ⟨off / 0x20, h⟩ .timerHi
    | 0x08 => .voice t ⟨off / 0x20, h⟩ .phase
    | 0x0C => .voice t ⟨off / 0x20, h⟩ .fphaseLo
    | 0x10 => .voice t ⟨off / 0x20, h⟩ .fphaseHi
    | _ => .reserved
  else .reserved

/-- The address map (R67) for a word-aligned address of a block with NOTE RAMs of `depth` words. -/
def addressMap (depth : Nat) (a : Nat) : Target :=
  if a < 0x100 then controlTarget a
  else if a < 0x180 then trackTarget (Fin.ofNat 4 ((a - 0x100) / 0x20)) ((a - 0x100) % 0x20)
  else if 0x1000 ≤ a ∧ a < 0x1300 then
    .wave (Fin.ofNat 3 ((a - 0x1000) / 0x100)) ((a - 0x1000) % 0x100 / 4)
  else if 0x2000 ≤ a ∧ a < 0x20C0 then
    .env (Fin.ofNat 3 ((a - 0x2000) / 0x40)) ((a - 0x2000) % 0x40 / 4)
  else if 0x10000 ≤ a ∧ a < 0x11000 then
    voiceTarget (Fin.ofNat 4 ((a - 0x10000) / 0x400)) ((a - 0x10000) % 0x400)
  else if 0x100000 ≤ a ∧ a < 0x500000 then
    (if (a - 0x100000) % 0x100000 / 4 < depth then
      .note (Fin.ofNat 4 ((a - 0x100000) / 0x100000)) ((a - 0x100000) % 0x100000 / 4)
    else .reserved)
  else .reserved

/-- What a bus address selects; a misaligned one selects nothing (R65, R73). -/
def State.target (s : State) (a : Addr) : Target :=
  if a.toNat % 4 = 0 then addressMap s.params.noteDepth a.toNat else .reserved

/-- How a target takes accesses (R67 to R73). -/
inductive Access where
  /-- read only: a write is refused -/
  | readOnly
  /-- the CMD register: a write executes -/
  | command
  /-- read and write, locked while `READY` = 1 -/
  | locked
  /-- reserved: reads and writes are refused -/
  | absent
  deriving DecidableEq, Repr

/-- The access column of R67 to R72. -/
def Target.access : Target → Access
  | .id => .readOnly
  | .cmd => .command
  | .status => .readOnly
  | .sampleRate => .locked
  | .tickMs => .locked
  | .repeatTick => .locked
  | .endTick => .locked
  | .recordCount => .locked
  | .pos => .readOnly
  | .tinc => .readOnly
  | .sptLo => .readOnly
  | .sptHi => .readOnly
  | .cdLo => .readOnly
  | .cdHi => .readOnly
  | .outFrame => .readOnly
  | .errCause => .readOnly
  | .errInfo => .readOnly
  | .noteDepth => .readOnly
  | .octave _ => .locked
  | .length _ => .locked
  | .volume _ => .locked
  | .vmix _ => .readOnly
  | .vmixLow => .readOnly
  | .volLeft _ => .readOnly
  | .volRight _ => .readOnly
  | .wave _ _ => .locked
  | .env _ _ => .locked
  | .voice _ _ _ => .readOnly
  | .note _ _ => .locked
  | .reserved => .absent

/-- A word of the voice window (R72): the halves of the 48-bit values, the timer's sign-extended and the position's
zero-extended. -/
def Voice.field (v : Voice) : VoiceField → Word
  | .timerLo => v.timer.extractLsb' 0 32
  | .timerHi => (v.timer.extractLsb' 32 16).signExtend 32
  | .phase => v.phase
  | .fphaseLo => v.fphase.extractLsb' 0 32
  | .fphaseHi => (v.fphase.extractLsb' 32 16).setWidth 32

/-- The word a read of a target returns (R68 to R72, R126); CMD and reserved addresses return 0 (R73). -/
def State.readTarget (s : State) : Target → Word
  | .id => 0x50590001
  | .cmd => 0
  | .status => s.statusWord
  | .sampleRate => s.sampleRate
  | .tickMs => s.tickMs
  | .repeatTick => s.repeatTick
  | .endTick => s.endTick
  | .recordCount => s.recordCount
  | .pos => s.pos
  | .tinc => s.tinc
  | .sptLo => s.spt.extractLsb' 0 32
  | .sptHi => s.spt.extractLsb' 32 32
  | .cdLo => s.cd.extractLsb' 0 32
  | .cdHi => s.cd.extractLsb' 32 32
  | .outFrame => s.outR ++ s.outL
  | .errCause => s.errCause.setWidth 32
  | .errInfo => s.errInfo
  | .noteDepth => BitVec.ofNat 32 s.params.noteDepth
  | .octave m => s.octave[m].setWidth 32
  | .length m => s.length[m]
  | .volume t => s.volume[t]
  | .vmix t => s.vmix[t].setWidth 32
  | .vmixLow => s.vmixLow.setWidth 32
  | .volLeft t => s.vl[t].setWidth 32
  | .volRight t => s.vr[t].setWidth 32
  | .wave m j => s.ramWord (waveAddr m (4 * j))
  | .env m j => s.ramWord (envAddr m (4 * j))
  | .voice t n f => (s.voice t n).field f
  | .note t j => s.noteRead t j
  | .reserved => 0

/-- `Store(a, d)` (R123 to R125): only locked targets take a store; OCTAVE keeps d[7:0] (R124). -/
def State.storeTarget (x : Target) (d : Word) (s : State) : State :=
  match x with
  | .sampleRate => { s with sampleRate := d }
  | .tickMs => { s with tickMs := d }
  | .repeatTick => { s with repeatTick := d }
  | .endTick => { s with endTick := d }
  | .recordCount => { s with recordCount := d }
  | .octave m => { s with octave := s.octave.set m.val (d.extractLsb' 0 8) }
  | .length m => { s with length := s.length.set m.val d }
  | .volume t => { s with volume := s.volume.set t.val d }
  | .wave m j => s.writeRamWord (waveAddr m (4 * j)) d
  | .env m j => s.writeRamWord (envAddr m (4 * j)) d
  | .note t j => s.writeRamWord (noteAddr t j) d
  | .id | .cmd | .status | .pos | .tinc | .sptLo | .sptHi | .cdLo | .cdHi | .outFrame | .errCause
  | .errInfo | .noteDepth | .vmix _ | .vmixLow | .volLeft _ | .volRight _ | .voice _ _ _ | .reserved => s

/-- An address as the information word of an error (R242). -/
def addrInfo (a : Addr) : Word := a.setWidth 32

end Sys2Proof.Machine
end

