-- ==== Sys2Proof/Machine/Bus.lean ====
section
/-! DEFINITION. Bus reads and writes (spec/40_host_bus.md R120, R121). -/

namespace Sys2Proof.Machine

/-- RD a (R120): returns the word the address selects; a misaligned or reserved address returns 0 and raises cause
1. CMD reads 0 and raises nothing. -/
def execRd (a : Addr) (s : State) : Host.Outcome State Fault Refusal :=
  match (s.target a).access with
  | .absent => .next { s.raiseError .addr (addrInfo a) with readData := some 0 }
  | .readOnly => .next { s with readData := some (s.readTarget (s.target a)) }
  | .command => .next { s with readData := some (s.readTarget (s.target a)) }
  | .locked => .next { s with readData := some (s.readTarget (s.target a)) }

/-- WR a, d (R121): cause 1 for a misaligned, reserved or read-only address; a write to CMD executes d (R127); a
locked target takes the store while `READY` = 0 and raises cause 2 while it is 1 (R122). -/
def execWr (a : Addr) (d : Word) (s : State) : Host.Outcome State Fault Refusal :=
  match (s.target a).access with
  | .absent => .next (s.raiseError .addr (addrInfo a))
  | .readOnly => .next (s.raiseError .addr (addrInfo a))
  | .command => executeCommand d s
  | .locked =>
    if s.ready then .next (s.raiseError .lock (addrInfo a))
    else .next (s.storeTarget (s.target a) d)

end Sys2Proof.Machine
end

