-- ==== Sys2Proof/Machine/Dispatch.lean ====
section
/-! DEFINITION. One arm for each instruction: the meaning it calls. -/

namespace Sys2Proof.Machine

def exec (i : Instr) (s : State) : Host.Outcome State Fault Refusal :=
  match i with
  | .rd a => Sys2Proof.Machine.execRd a s
  | .wr a d => Sys2Proof.Machine.execWr a d s
  | .nop => Sys2Proof.Machine.execNop s
  | .arm => Sys2Proof.Machine.execArm s
  | .disarm => Sys2Proof.Machine.execDisarm s
  | .frame => Sys2Proof.Machine.execFrame s
  | .clrerr => Sys2Proof.Machine.execClrerr s
  | .cmdRsvd w => Sys2Proof.Machine.execCmdRsvd w s
  | .ev t trig => Sys2Proof.Machine.execEv t trig s
  | .evPan t trig p => Sys2Proof.Machine.execEvPan t trig p s
  | .evRsvd t trig p => Sys2Proof.Machine.execEvRsvd t trig p s

end Sys2Proof.Machine
end

