-- ==== Sys2Proof/Machine/Fetch.lean ====
section
/-! DEFINITION. What the block does next: one event of the outside world, and for a bus transaction the instruction
it carries (spec/20_memory.md R63, R76; spec/70_reset_and_hazards.md R270; log entries 3 to 5). -/

namespace Sys2Proof.Machine

/-- What a step has to do. -/
inductive Fetched where
  /-- nothing to execute: this is the next state -/
  | idle (s : State)
  /-- execute the instruction in this state -/
  | run (i : Instr) (s : State)
  deriving DecidableEq, Repr

/-- The bus returns nothing and the frame strobe is low until this step's transaction says otherwise (R60, R75). -/
def State.clearPorts (s : State) : State := { s with readData := none, framePort := [] }

/-- Takes the oldest event. With none the block holds its state and does nothing (R257, R273). While reset is
asserted a transaction is ignored (R270). -/
def fetch (s : State) : Fetched :=
  match s.inbox with
  | [] => .idle s.clearPorts
  | .bus x :: rest =>
    let s := { s.clearPorts with inbox := rest }
    if s.resetLine then .idle (s.ignoreTxn x) else .run (decodeBus x) s
  | .resetInput level :: rest => .idle ({ s.clearPorts with inbox := rest }.driveReset level)
  | .resetDuring _ :: rest => .idle ({ s.clearPorts with inbox := rest }.driveReset true)
  | .powerOn :: rest => .idle { s.clearPorts with inbox := rest }.cyclePower

/-- The host issues a transaction, to be performed before what it already has issued, with the reset input
released. -/
def State.presentTxn (x : BusTxn) (s : State) : State :=
  { s with resetLine := false, inbox := .bus x :: s.inbox }

/-- Places an event word so that the very next step runs it (log entry 7): word 0 of track 0's NOTE RAM holds it, the
other tracks have no event there, the timeline is at 0 with one record, the block plays, a tick is due, and the
host issues FRAME. -/
def State.presentEvent (w : Word) (s : State) : State :=
  ((((({ s with ready := true, pos := 0, recordCount := 1, cd := 0, spt := 1 }.writeRamWord
    (noteAddr 0 0) w).writeRamWord (noteAddr 1 0) 0).writeRamWord (noteAddr 2 0) 0).writeRamWord
    (noteAddr 3 0) 0)).presentTxn (.write cmdAddr 3)

/-- Stores the words of a code where the next step finds them. -/
def State.presentCode (c : Code) (s : State) : State :=
  match c with
  | .bus x => s.presentTxn x
  | .event _ w => s.presentEvent w

end Sys2Proof.Machine
end

