-- ==== Sys2Proof/Machine/Step.lean ====
section
/-! DEFINITION. One step of the machine: one event of the outside world, whole (spec/00_scope.md R7;
spec/20_memory.md R63). -/

namespace Sys2Proof.Machine

/-- One step. -/
def step (s : State) : Host.Outcome State Fault Refusal :=
  match fetch s with
  | .idle t => .next t
  | .run i t => exec i t

/-- s with a word of the opcode table placed where the next step fetches and runs it (log entries 6 and 7). -/
def State.withFetchWord (s : State) (nbits w : Nat) : State :=
  match tablePlace nbits w with
  | some p =>
    match codeOfBytes p (bytesOfNum (nbits / 8) w) with
    | some c => s.presentCode c
    | none => s
  | none => s

end Sys2Proof.Machine
end

