-- ==== Sys2Proof/Machine/HostProgram.lean ====
section
/-! DEFINITION. The host's side of the bus: what a host program is (spec/30_encoding.md R104 to R106), the load of a
score from its image (R101 to R103; spec/40_host_bus.md R137, R138) and the render sink (R139, R140). None of this
is the block's: each function gives the transactions the host issues (log entry 15). -/

namespace Sys2Proof.Machine

/-! ## Pseudo-instructions (R105, R106) -/

/-- `CMD <NAME>` (R105). -/
def cmdTxn (i : Instr) : BusTxn := .write cmdAddr (commandWord i)

/-- The address of OUT_FRAME (R68). -/
def outFrameAddr : Addr := 0x38

/-- `FRAMES k`, the render sink for k frames (R105, R139). -/
def framesTxns : Nat → List BusTxn
  | 0 => []
  | k + 1 => cmdTxn .frame :: .read outFrameAddr :: framesTxns k

/-- A bus address given as a number. -/
def addrOf (n : Nat) : Addr := BitVec.ofNat 24 n

/-- Writes of bytes four at a time, packed least significant first, from an address up (R103, R105). -/
def packTxns (addr : Nat) : Nat → List Byte → List BusTxn
  | 0, _ => []
  | k + 1, bs =>
    .write (addrOf addr) (BitVec.ofNat 32 (numOfBytes (bs.take 4))) :: packTxns (addr + 4) k (bs.drop 4)

/-- `WAVE.m b0, ..., b255` (R105). -/
def waveTxns (m : Melodic) (bs : List Byte) : List BusTxn := packTxns (waveAddr m 0) 64 bs

/-- `ENV.m e0, ..., e63` (R105). -/
def envTxns (m : Melodic) (bs : List Byte) : List BusTxn := packTxns (envAddr m 0) 16 bs

/-- The write of event word j of track t (R71, R102). -/
def noteTxn (t : Track) (j : Nat) (w : Word) : BusTxn := .write (addrOf (noteAddr t j)) w

/-- `NOTES.t w0, ..., w(k-1)` from word j on (R105). -/
def notesTxns (t : Track) : Nat → List Word → List BusTxn
  | _, [] => []
  | j, w :: ws => noteTxn t j w :: notesTxns t (j + 1) ws

/-- `EV trig=<mask>, pan=<p>`: (p mod 256) x 2^24 + (mask mod 2^24) (R106). -/
def assembleEvent (mask p : Nat) : Word := eventWord (BitVec.ofNat 24 mask) (BitVec.ofNat 8 p)

/-- `EV trig=<slots>, pan=<p>`: a slot list in place of the mask (R106). -/
def assembleEventSlots (ns : List Slot) (p : Nat) : Word :=
  assembleEvent (ns.foldl (fun m n => m ||| 2 ^ n.val) 0) p

/-! ## The load image (R101 to R103) -/

/-- A field of the image: how many bytes it has, and what the host writes when it has read them. -/
structure ImageField where
  size : Nat
  txns : List Byte → List BusTxn

/-- A field that is discarded (R102). -/
def ImageField.ignored (size : Nat) : ImageField := ⟨size, fun _ => []⟩

/-- A number of `size` bytes written to one register (R102, R103). -/
def ImageField.register (size : Nat) (addr : Nat) : ImageField :=
  ⟨size, fun bs => [.write (addrOf addr) (BitVec.ofNat 32 (numOfBytes bs))]⟩

/-- The fields of one melodic track, in read order (R101), with where they go (R69, R102). -/
def melodicFields (m : Melodic) : List ImageField :=
  [.register 1 (0x100 + 0x20 * m.val), .ignored 3, .register 4 (0x104 + 0x20 * m.val),
    .register 4 (0x108 + 0x20 * m.val), .ignored 4, .ignored 4, ⟨256, waveTxns m⟩, ⟨64, envTxns m⟩]

/-- The fields before the event words, in read order (R101). -/
def headerFields : List ImageField :=
  [.ignored 3, .ignored 5, .register 4 0x10, .register 4 0x14, .register 4 0x18, .register 4 0x1C] ++
    melodicFields 0 ++ melodicFields 1 ++ melodicFields 2 ++ [.register 4 0x168]

/-- The event words of one track from word j on, `count` of them (R101, R102). -/
def trackFields (t : Track) : Nat → Nat → List ImageField
  | 0, _ => []
  | count + 1, j =>
    ⟨4, fun bs => [noteTxn t j (BitVec.ofNat 32 (numOfBytes bs))]⟩ :: trackFields t count (j + 1)

/-- The event words of all four tracks, track by track (R101). -/
def noteFields (count : Nat) : List ImageField :=
  trackFields 0 count 0 ++ trackFields 1 count 0 ++ trackFields 2 count 0 ++ trackFields 3 count 0

/-- Reads fields in order: the host's writes, and the bytes left, none after a short read (R138). -/
def readFields : List ImageField → List Byte → List BusTxn × Option (List Byte)
  | [], bs => ([], some bs)
  | f :: fs, bs =>
    if bs.length < f.size then ([], none)
    else
      let rest := readFields fs (bs.drop f.size)
      (f.txns (bs.take f.size) ++ rest.1, rest.2)

/-- recordCount, the i32 at offset 20 (R101); a negative one means no event word. -/
def imageRecordCount (image : List Byte) : Nat :=
  (BitVec.ofNat 32 (numOfBytes ((image.drop 20).take 4))).toInt.toNat

/-- The bytes a whole image has (R101). -/
def imageSize (image : List Byte) : Nat := 1048 + 16 * imageRecordCount image

/-- The load of a score (R137, R138): DISARM, every field of the image in read order, SAMPLE_RATE, ARM. A short read
ends the load where it happens, without an ARM. -/
def loadTxns (image : List Byte) (sampleRate : Word) : List BusTxn :=
  let header := readFields headerFields image
  cmdTxn .disarm :: header.1 ++
    match header.2 with
    | none => []
    | some rest =>
      let notes := readFields (noteFields (imageRecordCount image)) rest
      notes.1 ++
        match notes.2 with
        | none => []
        | some _ => [.write 0x0C sampleRate, cmdTxn .arm]

/-- The host issues a list of transactions, after what it already has issued. -/
def State.issue (xs : List BusTxn) (s : State) : State := { s with inbox := s.inbox ++ xs.map .bus }

end Sys2Proof.Machine
end

