-- ==== Sys2Proof/Safety.lean ====
section
/-! DEFINITION. What a legal state of the block is, in the terms the statements use: each part is an invariant that
every step keeps, from any state that has it. -/

namespace Sys2Proof.Machine

/-- The bytes of WAVE, ENV and NOTE RAM (spec/20_memory.md R67, R70, R71). -/
def RamAddr (depth a : Nat) : Prop :=
  (0x1000 ≤ a ∧ a < 0x1300) ∨ (0x2000 ≤ a ∧ a < 0x20C0) ∨
    ∃ t : Track, noteAddr t 0 ≤ a ∧ a < noteAddr t 0 + 4 * depth

/-- A register or memory word that a write refuses while READY = 1: the "lock" rows of R68 to R71. -/
def LockAddr (depth a : Nat) : Prop :=
  a ∈ [0x0C, 0x10, 0x14, 0x18, 0x1C] ∨
    (∃ m : Melodic, a = 0x100 + 0x20 * m.val ∨ a = 0x104 + 0x20 * m.val) ∨
    (∃ t : Track, a = 0x108 + 0x20 * t.val) ∨
    (a % 4 = 0 ∧ RamAddr depth a)

/-- A read-only register or a word of the voice window: the RO rows of R68, R69 and R72. -/
def ReadOnlyAddr (a : Nat) : Prop :=
  a ∈ [0x00, 0x08, 0x20, 0x24, 0x28, 0x2C, 0x30, 0x34, 0x38, 0x3C, 0x40, 0x44] ∨
    (∃ t : Track, a = 0x10C + 0x20 * t.val ∨ a = 0x114 + 0x20 * t.val ∨ a = 0x118 + 0x20 * t.val) ∨
    a = 0x170 ∨
    (∃ (t : Track) (n : Slot), ∃ off ∈ [0x00, 0x04, 0x08, 0x0C, 0x10],
      a = 0x10000 + 0x400 * t.val + 0x20 * n.val + off)

/-- An address that R67 to R72 list. -/
def MappedAddr (depth a : Nat) : Prop := a = 0x04 ∨ LockAddr depth a ∨ ReadOnlyAddr a

/-- RAM is in its canonical form and lists only RAM cells. -/
def State.MemoryLegal (s : State) : Prop :=
  Memory.wf s.mem = true ∧ ∀ c ∈ s.mem, RamAddr s.params.noteDepth c.1

/-- Every gain register is a UQ1.15 value in [0, 32768] (R43 to R45). -/
def State.GainsLegal (s : State) : Prop :=
  (∀ t : Track, s.vmix[t].toNat ≤ 32768 ∧ s.vl[t].toNat ≤ 32768 ∧ s.vr[t].toNat ≤ 32768) ∧
    s.vmixLow.toNat ≤ 32768

/-- At most one pan multiplier of a track is below unity (R161, R222). -/
def State.PanLegal (s : State) : Prop := ∀ t : Track, s.vl[t] = 32768 ∨ s.vr[t] = 32768

/-- While the block plays, the latched values are those ARM computed from the locked configuration, which passed its
check (R129, R130, R151, R152), and the countdown is below its reload value (R150). -/
def State.PlayLegal (s : State) : Prop :=
  s.ready = true →
    s.sampleRate ≠ 0 ∧ 1 ≤ s.tinc.toNat ∧ s.tinc.toNat = tincOf s.params.refRate s.sampleRate ∧
    0 ≤ s.recordCount.toInt ∧ s.recordCount.toInt ≤ s.params.noteDepth ∧
    (s.spt.toNat : Int) = sptOf s.sampleRate s.tickMs ∧ s.cd.toNat < s.spt.toNat

/-- While the block plays, the loudness multipliers are those of the locked volumes (R159, R160). -/
def State.LatchLegal (s : State) : Prop :=
  s.ready = true →
    (∀ t : Track, s.vmix[t] = volumeGain s.volume[t]) ∧ s.vmixLow = volumeGainLow s.volume[percussion]

/-- While the block plays, a live melodic slot has no more lifetime than its track's length, and no melodic slot has
a drum position (R42, R156, R182). -/
def State.MelodicLegal (s : State) : Prop :=
  s.ready = true → ∀ (m : Melodic) (n : Slot),
    (0 < (s.voice m.track n).timer.toInt →
      (s.voice m.track n).timer.toInt ≤ s.length[m].toInt * 65536) ∧
    (s.voice m.track n).fphase = 0

/-- While the block plays, the timer and the position of a live percussion slot add up to the length of its drum
sample, and no percussion slot has a waveform phase (R41, R207). -/
def State.DrumLegal (s : State) : Prop :=
  s.ready = true → ∀ n : Slot,
    (0 < (s.voice percussion n).timer.toInt →
      (s.voice percussion n).timer.toInt + (s.voice percussion n).fphase.toNat = s.drumLen n * 65536) ∧
    (s.voice percussion n).phase = 0

/-- The error record agrees with the sticky flags: it is empty exactly when no flag is set, and else holds a cause
whose flag is set (R23, R24, R241, R242). -/
def State.ErrorLegal (s : State) : Prop :=
  (s.errCause = 0 ∧ s.errInfo = 0 ∧ ∀ c, s.errorFlag c = false) ∨
    ∃ c, s.errCause = c.code ∧ s.errorFlag c = true

/-- While a well-formed loop plays, the position is inside it (R164). -/
def State.TimelineLegal (s : State) : Prop :=
  s.ready = true → 1 ≤ s.endTick.toInt → 0 ≤ s.repeatTick.toInt → s.repeatTick.toInt < s.endTick.toInt →
    0 ≤ s.pos.toInt ∧ s.pos.toInt < s.endTick.toInt

/-- The contributions of a frame in the order of its additions (R220): track by track, slot by slot, those of the slots
that are LIVE and not past their end. -/
def State.contributions (s : State) : List (Int × Int) :=
  tracks.flatMap fun t => slots.filterMap fun n => (s.slotStep t n).2

/-- What every event word does to slots and gains (R153, R155 to R160), whatever its pan field: u is s but for this (and
what the pan field adds). -/
def TriggersAndGains (s : State) (t : Track) (trig : BitVec 24) (u : State) : Prop :=
  (∀ m : Melodic, t = m.track → ∀ n : Slot, trig.getLsbD n.val = true →
    (u.voice t n).timer.toInt = s.length[m].toInt * 65536 ∧ (u.voice t n).phase = 0 ∧
      (u.voice t n).fphase = 0) ∧
  (t = percussion → s.params.Valid → ∀ (n : Slot) (drum : List Byte), trig.getLsbD n.val = true →
    s.params.drums[s.params.drumMap[n]]? = some drum →
    (u.voice t n).timer.toInt = drum.length * 65536 ∧ (u.voice t n).phase = 0 ∧ (u.voice t n).fphase = 0) ∧
  (∀ (t' : Track) (n : Slot), ¬ (t' = t ∧ trig.getLsbD n.val = true) → u.voice t' n = s.voice t' n) ∧
  u.vmix[t].toNat = gain (max (-10000) (min 0 ((s.volume[t].toInt - 300) * 8))) ∧
  (∀ t' : Track, t' ≠ t → u.vmix[t'] = s.vmix[t']) ∧
  (t = percussion →
    u.vmixLow.toNat = gain (max (-10000) (min 0 (((7 * s.volume[t].toInt).tdiv 10 - 300) * 8)))) ∧
  (t ≠ percussion → u.vmixLow = s.vmixLow)

/-- The play state that no host write reaches (R52): everything R37 to R47 name, and `POS`. -/
def SamePlayState (s u : State) : Prop :=
  u.pos = s.pos ∧ u.tinc = s.tinc ∧ u.spt = s.spt ∧ u.cd = s.cd ∧ u.voices = s.voices ∧ u.vmix = s.vmix ∧
    u.vmixLow = s.vmixLow ∧ u.vl = s.vl ∧ u.vr = s.vr ∧ u.accL = s.accL ∧ u.accR = s.accR ∧
    u.outL = s.outL ∧ u.outR = s.outR

/-- The configuration registers and the contents of RAM (R25 to R35), which are locked while READY = 1 (R122). -/
def SameScore (s u : State) : Prop :=
  u.sampleRate = s.sampleRate ∧ u.tickMs = s.tickMs ∧ u.repeatTick = s.repeatTick ∧ u.endTick = s.endTick ∧
    u.recordCount = s.recordCount ∧ u.octave = s.octave ∧ u.length = s.length ∧ u.volume = s.volume ∧
    ∀ a, u.ramByte a = s.ramByte a

/-- Everything a run keeps. -/
def State.Legal (s : State) : Prop :=
  s.params.Valid ∧ s.MemoryLegal ∧ s.GainsLegal ∧ s.PanLegal ∧ s.PlayLegal ∧ s.LatchLegal ∧
    s.MelodicLegal ∧ s.DrumLegal ∧ s.ErrorLegal ∧ s.TimelineLegal

end Sys2Proof.Machine
end

