-- ==== Sys2Proof/Certificates/Slice0/Obligations.lean ====
section
/-! DEFINITION. The statements for the provers, one for each group of the spec's numbered rules. -/

open Sys2Proof Sys2Proof.Machine

/-! ## Encoding (30_encoding.md) -/

/-- R91 to R99: decoding the words of a well-formed instruction gives it back, and so does decoding their bytes. -/
def Obligations.DecodeInvertsEncode : Prop :=
  ∀ i : Instr, i.wellFormed = true →
    decode (encode i) = i ∧ decodeBytes (encode i).place (encode i).bytes = .ok i

/-- R94, R99, R107: every word at every place is a well-formed instruction, and only the words of that instruction are
it. -/
def Obligations.EncodeInvertsDecode : Prop :=
  ∀ c : Code, (decode c).wellFormed = true ∧ encode (decode c) = c

/-- R91, R93, R95, R106: a few words written out from their encodings decode to what they stand for. -/
def Obligations.SampleWordsDecode : Prop :=
  decode (.bus (.read 0x000044)) = .rd 0x000044 ∧
  decode (.bus (.write 0x00000C 0x0000AC44)) = .wr 0x00000C 44100 ∧
  decode (.bus (.write 0x000004 0x00000003)) = .frame ∧
  decode (.bus (.write 0x000004 0x00000103)) = .cmdRsvd 0x00000103 ∧
  decode (.event 0 0x00002001) = .ev 0 0x002001 ∧
  decode (.event 0 0x01002001) = .evPan 0 0x002001 1 ∧
  decode (.event 2 0x08000001) = .evRsvd 2 0x000001 8 ∧
  decode (.event 3 0xFF000000) = .evRsvd 3 0 255

/-! ## Steps, reset and power (20_memory.md, 70_reset_and_hazards.md) -/

/-- R7, R63, R121: a step whose oldest event is a bus transaction is exec of the instruction it decodes to, with that
event taken, no read data and no strobe yet; with no event the block holds its state. (The event queue and the port
fields are the model's, log entries 3 and 5.) -/
def Obligations.StepRunsDecodedInstruction : Prop :=
  (∀ (s : State) (x : BusTxn) (rest : List HostEvent), s.inbox = .bus x :: rest → s.resetLine = false →
    (decodeBus x).wellFormed = true ∧
      step s = exec (decodeBus x) { s with inbox := rest, readData := none, framePort := [] }) ∧
  (∀ s : State, s.inbox = [] → step s = .next { s with readData := none, framePort := [] })

/-- R153, R154: a tick executes the event word of each track that stands at the position (no event outside the
timeline), decoded, in track order, all read at one position, and then advances it. -/
def Obligations.TickRunsDecodedEvents : Prop :=
  (∀ s : State, ∃ s₁ s₂ s₃ s₄ : State,
    exec (decodeEvent 0 (s.eventAt 0)) s = .next s₁ ∧ exec (decodeEvent 1 (s.eventAt 1)) s₁ = .next s₂ ∧
    exec (decodeEvent 2 (s.eventAt 2)) s₂ = .next s₃ ∧ exec (decodeEvent 3 (s.eventAt 3)) s₃ = .next s₄ ∧
    s.tick = s₄.advancePos) ∧
  (∀ (s : State) (t : Track) (j : Nat), s.pos.toInt = j → (j : Int) < s.recordCount.toInt →
    s.eventAt t =
      s.ramByte (0x100000 + 0x100000 * t.val + 4 * j + 3) ++ s.ramByte (0x100000 + 0x100000 * t.val + 4 * j + 2) ++
        s.ramByte (0x100000 + 0x100000 * t.val + 4 * j + 1) ++ s.ramByte (0x100000 + 0x100000 * t.val + 4 * j)) ∧
  (∀ (s : State) (t : Track), s.pos.toInt < 0 ∨ s.recordCount.toInt ≤ s.pos.toInt → s.eventAt t = 0)

/-- R270 to R272: asserting reset, with or without a transaction in flight, or by a power-on, sets every register to its
reset value and leaves the parameters and the events still to come; but for a power-on it leaves RAM too. (The event
queue, the reset line and the port fields are the model's, log entries 3, 4 and 5.) -/
def Obligations.ResetSetsEveryRegister : Prop :=
  ∀ (s : State) (ev : HostEvent) (rest : List HostEvent), s.inbox = ev :: rest →
    (ev = .resetInput true ∨ (∃ x, ev = .resetDuring x) ∨ ev = .powerOn) →
    ∃ u, step s = .next u ∧
      u.ready = false ∧ (∀ c, u.errorFlag c = false) ∧ u.errCause = 0 ∧ u.errInfo = 0 ∧
      u.sampleRate = 0 ∧ u.tickMs = 0 ∧ u.repeatTick = 0 ∧ u.endTick = 0 ∧ u.recordCount = 0 ∧
      (∀ m : Melodic, u.octave[m] = 0 ∧ u.length[m] = 0) ∧ (∀ t : Track, u.volume[t] = 0) ∧
      u.pos = 0 ∧ u.tinc = 0 ∧ u.spt = 0 ∧ u.cd = 0 ∧ (∀ (t : Track) (n : Slot), u.voice t n = ⟨0, 0, 0⟩) ∧
      (∀ t : Track, u.vmix[t] = 0 ∧ u.vl[t] = 32768 ∧ u.vr[t] = 32768) ∧ u.vmixLow = 0 ∧
      u.accL = 0 ∧ u.accR = 0 ∧ u.outL = 0 ∧ u.outR = 0 ∧
      (ev ≠ .powerOn → ∀ a, u.ramByte a = s.ramByte a) ∧ u.params = s.params ∧ u.resetLine = true ∧
      u.inbox = rest ∧ u.readData = none ∧ u.framePort = []

/-- R270: while reset is asserted a transaction is ignored: a read returns 0, no error is raised, no frame is strobed,
no register or memory changes. (The event queue and the reset line are the model's, log entries 3 and 4.) -/
def Obligations.ResetHoldsOffTransactions : Prop :=
  ∀ (s : State) (rest : List HostEvent), s.resetLine = true →
    (∀ a, s.inbox = .bus (.read a) :: rest →
      step s = .next { s with inbox := rest, readData := some 0, framePort := [] }) ∧
    (∀ a d, s.inbox = .bus (.write a d) :: rest →
      step s = .next { s with inbox := rest, readData := none, framePort := [] })

/-- R49, R272: at power-on every RAM cell takes a new free draw. From any state, no instruction but WR changes a byte of
RAM, a WR changes at most the four bytes from its own address, and so does a step, except at a power-on: every step leaves
every byte that is not of the word its own bus write addresses. (The draw itself is the opaque Config.powerOnByte, log
entry 2: the statement holds whatever it is. The event queue and the reset line are the model's, log entries 3
and 4.) -/
def Obligations.PowerOnRedrawsRam : Prop :=
  (∀ (s : State) (rest : List HostEvent), s.inbox = .powerOn :: rest →
    ∃ u, step s = .next u ∧ u.ready = false ∧ u.resetLine = true ∧ u.params = s.params ∧
      ∀ a, u.ramByte a = Config.powerOnByte (s.powerEpoch + 1) a) ∧
  (∀ (i : Instr) (w : State), ∃ v, exec i w = .next v ∧
    ∀ x, (∀ b d, i = .wr b d → x < b.toNat ∨ b.toNat + 4 ≤ x) → v.ramByte x = w.ramByte x) ∧
  (∀ w : State, w.inbox.head? ≠ some .powerOn → ∃ v, step w = .next v ∧
    ∀ x, (∀ b d, w.inbox.head? = some (.bus (.write b d)) → x < b.toNat ∨ b.toNat + 4 ≤ x) →
      v.ramByte x = w.ramByte x)

/-- R271, R273: the machine right after reset: every register at its reset value, in configuration mode, and every
invariant holds. (The parameters and the model's own fields are log entries 1 to 5.) -/
def Obligations.ResetStateIsLegal : Prop :=
  State.reset.Legal ∧ State.reset.ready = false ∧ State.reset.statusWord = 0 ∧ State.reset.errCause = 0 ∧
    State.reset.errInfo = 0 ∧ State.reset.sampleRate = 0 ∧ State.reset.tickMs = 0 ∧ State.reset.repeatTick = 0 ∧
    State.reset.endTick = 0 ∧ State.reset.recordCount = 0 ∧
    (∀ m : Melodic, State.reset.octave[m] = 0 ∧ State.reset.length[m] = 0) ∧
    (∀ t : Track, State.reset.volume[t] = 0) ∧ State.reset.pos = 0 ∧ State.reset.tinc = 0 ∧ State.reset.spt = 0 ∧
    State.reset.cd = 0 ∧
    (∀ (t : Track) (n : Slot), State.reset.voice t n = ⟨0, 0, 0⟩) ∧
    (∀ t : Track, State.reset.vmix[t] = 0 ∧ State.reset.vl[t] = 32768 ∧ State.reset.vr[t] = 32768) ∧
    State.reset.vmixLow = 0 ∧ State.reset.accL = 0 ∧ State.reset.accR = 0 ∧ State.reset.outL = 0 ∧
    State.reset.outR = 0

/-! ## Bus reads (20_memory.md R65 to R73, 40_host_bus.md R120, R126) -/

/-- R62, R68, R69, R100: a read of each register's address returns the value its row of the map gives, and has no other
effect. -/
def Obligations.ReadRegisters : Prop :=
  ∀ s : State,
    (∀ q ∈ ([(0x00, 0x50590001), (0x04, 0), (0x0C, s.sampleRate), (0x10, s.tickMs), (0x14, s.repeatTick),
        (0x18, s.endTick), (0x1C, s.recordCount), (0x20, s.pos), (0x24, s.tinc),
        (0x28, BitVec.ofNat 32 s.spt.toNat), (0x2C, BitVec.ofNat 32 (s.spt.toNat / 2 ^ 32)),
        (0x30, BitVec.ofNat 32 s.cd.toNat), (0x34, BitVec.ofNat 32 (s.cd.toNat / 2 ^ 32)),
        (0x38, BitVec.ofNat 32 (s.outR.toNat * 65536 + s.outL.toNat)), (0x3C, BitVec.ofNat 32 s.errCause.toNat),
        (0x40, s.errInfo), (0x44, BitVec.ofNat 32 s.params.noteDepth),
        (0x170, BitVec.ofNat 32 s.vmixLow.toNat)] : List (Addr × Word)),
      exec (.rd q.1) s = .next { s with readData := some q.2 }) ∧
    (∃ v : Word, exec (.rd 0x08) s = .next { s with readData := some v } ∧ v.getLsbD 0 = s.ready ∧
      v.getLsbD 1 = s.errAddr ∧ v.getLsbD 2 = s.errLock ∧ v.getLsbD 3 = s.errCmd ∧ v.getLsbD 4 = s.errCfg ∧
      v.getLsbD 5 = s.errPan ∧ ∀ k, 6 ≤ k → v.getLsbD k = false) ∧
    (∀ m : Melodic, ∀ q ∈ ([(0x100 + 0x20 * m.val, BitVec.ofNat 32 s.octave[m].toNat),
        (0x104 + 0x20 * m.val, s.length[m])] : List (Nat × Word)),
      exec (.rd (BitVec.ofNat 24 q.1)) s = .next { s with readData := some q.2 }) ∧
    (∀ t : Track, ∀ q ∈ ([(0x108 + 0x20 * t.val, s.volume[t]), (0x10C + 0x20 * t.val, BitVec.ofNat 32 s.vmix[t].toNat),
        (0x114 + 0x20 * t.val, BitVec.ofNat 32 s.vl[t].toNat),
        (0x118 + 0x20 * t.val, BitVec.ofNat 32 s.vr[t].toNat)] : List (Nat × Word)),
      exec (.rd (BitVec.ofNat 24 q.1)) s = .next { s with readData := some q.2 })

/-- R70, R71, R126: reading a word of WAVE, ENV or NOTE RAM returns its four bytes, the lowest address in bits [7:0]. -/
def Obligations.ReadMemoryWindows : Prop :=
  ∀ s : State, s.params.noteDepth ≤ 262144 →
    (∀ (m : Melodic) (j : Nat), j < 64 → ∃ v : Word,
      exec (.rd (BitVec.ofNat 24 (0x1000 + 0x100 * m.val + 4 * j))) s = .next { s with readData := some v } ∧
      ∀ k < 4, v.extractLsb' (8 * k) 8 = s.ramByte (waveAddr m (4 * j + k))) ∧
    (∀ (m : Melodic) (j : Nat), j < 16 → ∃ v : Word,
      exec (.rd (BitVec.ofNat 24 (0x2000 + 0x40 * m.val + 4 * j))) s = .next { s with readData := some v } ∧
      ∀ k < 4, v.extractLsb' (8 * k) 8 = s.ramByte (envAddr m (4 * j + k))) ∧
    (∀ (t : Track) (j : Nat), j < s.params.noteDepth →
      exec (.rd (BitVec.ofNat 24 (0x100000 + 0x100000 * t.val + 4 * j))) s =
        .next { s with readData := some (s.noteRead t j) })

/-- R72: a read of each word of a slot's block in the voice window returns the part of TIMER, PHASE or FPHASE that its row
gives, and has no other effect. -/
def Obligations.ReadVoiceWindow : Prop :=
  ∀ (s : State) (t : Track) (n : Slot),
    ∀ q ∈ ([(0x00, BitVec.ofInt 32 (s.voice t n).timer.toInt),
        (0x04, BitVec.ofInt 32 ((s.voice t n).timer.toInt / 2 ^ 32)), (0x08, (s.voice t n).phase),
        (0x0C, BitVec.ofNat 32 (s.voice t n).fphase.toNat),
        (0x10, BitVec.ofNat 32 ((s.voice t n).fphase.toNat / 2 ^ 32))] : List (Nat × Word)),
      exec (.rd (BitVec.ofNat 24 (0x10000 + 0x400 * t.val + 0x20 * n.val + q.1))) s =
        .next { s with readData := some q.2 }

/-- R65, R67, R73, R74, R120: a read of a misaligned or reserved address returns 0 and raises cause 1 with the address;
a read of any other address has no effect but the data it returns. -/
def Obligations.ReadOutsideTheMap : Prop :=
  ∀ (s : State) (a : Addr), s.params.noteDepth ≤ 262144 →
    (¬ MappedAddr s.params.noteDepth a.toNat →
      exec (.rd a) s = .next { s.raiseError .addr (a.setWidth 32) with readData := some 0 }) ∧
    (MappedAddr s.params.noteDepth a.toNat → ∃ v, exec (.rd a) s = .next { s with readData := some v })

/-! ## Bus writes (40_host_bus.md R121 to R125) -/

/-- R65, R73, R121, R243: a write to a misaligned, reserved or read-only address is dropped and raises cause 1 with the
address, whatever READY is. -/
def Obligations.WriteRefused : Prop :=
  ∀ (s : State) (a : Addr) (d : Word), s.params.noteDepth ≤ 262144 →
    ¬ MappedAddr s.params.noteDepth a.toNat ∨ ReadOnlyAddr a.toNat →
    exec (.wr a d) s = .next (s.raiseError .addr (a.setWidth 32))

/-- R122, R244: while READY = 1 a write to a lock address is dropped and raises cause 2 with the address. -/
def Obligations.WriteLocked : Prop :=
  ∀ (s : State) (a : Addr) (d : Word), s.params.noteDepth ≤ 262144 → s.ready = true →
    LockAddr s.params.noteDepth a.toNat → exec (.wr a d) s = .next (s.raiseError .lock (a.setWidth 32))

/-- R121, R127: a write to CMD, whatever READY is, is the command its data is. -/
def Obligations.WriteToCmdExecutes : Prop :=
  ∀ (s : State) (d : Word), exec (.wr 0x04 d) s = exec (decodeCommand d) s

/-- R123: with READY = 0 a store to a 32-bit read/write register sets it, all 32 bits, and changes nothing else. -/
def Obligations.WriteRegisters : Prop :=
  ∀ (s : State) (d : Word), s.ready = false →
    exec (.wr 0x0C d) s = .next { s with sampleRate := d } ∧
    exec (.wr 0x10 d) s = .next { s with tickMs := d } ∧
    exec (.wr 0x14 d) s = .next { s with repeatTick := d } ∧
    exec (.wr 0x18 d) s = .next { s with endTick := d } ∧
    exec (.wr 0x1C d) s = .next { s with recordCount := d } ∧
    (∀ m : Melodic, ∃ u, exec (.wr (BitVec.ofNat 24 (0x104 + 0x20 * m.val)) d) s = .next u ∧
      u = { s with length := u.length } ∧ ∀ m' : Melodic, u.length[m'] = if m' = m then d else s.length[m']) ∧
    (∀ t : Track, ∃ u, exec (.wr (BitVec.ofNat 24 (0x108 + 0x20 * t.val)) d) s = .next u ∧
      u = { s with volume := u.volume } ∧ ∀ t' : Track, u.volume[t'] = if t' = t then d else s.volume[t'])

/-- R124: with READY = 0 a store to OCTAVE keeps d[7:0], discards d[31:8] with no error, and changes nothing else. -/
def Obligations.WriteOctave : Prop :=
  ∀ (s : State) (m : Melodic) (d : Word), s.ready = false →
    ∃ u, exec (.wr (BitVec.ofNat 24 (0x100 + 0x20 * m.val)) d) s = .next u ∧
      u = { s with octave := u.octave } ∧
      ∀ m' : Melodic, u.octave[m'] = if m' = m then BitVec.ofNat 8 (d.toNat % 256) else s.octave[m']

/-- R125: with READY = 0 a store to a word of WAVE, ENV or NOTE RAM stores its four bytes at the word's address (the one
the meaning computes), leaves every other byte of RAM, and changes nothing else. -/
def Obligations.WriteMemory : Prop :=
  ∀ (s : State) (a : Addr) (base : Nat) (d : Word), s.ready = false → s.params.noteDepth ≤ 262144 →
    ((∃ (m : Melodic) (j : Nat), j < 64 ∧ a = BitVec.ofNat 24 (0x1000 + 0x100 * m.val + 4 * j) ∧
        base = waveAddr m (4 * j)) ∨
      (∃ (m : Melodic) (j : Nat), j < 16 ∧ a = BitVec.ofNat 24 (0x2000 + 0x40 * m.val + 4 * j) ∧
        base = envAddr m (4 * j)) ∨
      (∃ (t : Track) (j : Nat), j < s.params.noteDepth ∧
        a = BitVec.ofNat 24 (0x100000 + 0x100000 * t.val + 4 * j) ∧ base = noteAddr t j)) →
    ∃ u, exec (.wr a d) s = .next u ∧ u = { s with mem := u.mem } ∧
      (∀ k < 4, u.ramByte (base + k) = d.extractLsb' (8 * k) 8) ∧
      ∀ x, x < base ∨ base + 4 ≤ x → u.ramByte x = s.ramByte x

/-- R76, R126: with READY = 0 a read of a lock address after a write to it returns the word written (of an OCTAVE
register, its low 8 bits). -/
def Obligations.ReadAfterWrite : Prop :=
  ∀ (s : State) (a : Addr) (d : Word), s.ready = false → s.params.noteDepth ≤ 262144 →
    LockAddr s.params.noteDepth a.toNat →
    ∃ u v, exec (.wr a d) s = .next u ∧ exec (.rd a) u = .next v ∧
      v.readData = some (if a = 0x100 ∨ a = 0x120 ∨ a = 0x140 then d &&& 0xFF else d)

/-! ## Commands (40_host_bus.md R127 to R136) -/

/-- R128: NOP, also as the write of its word to CMD, changes nothing. -/
def Obligations.NopChangesNothing : Prop :=
  ∀ s : State, exec .nop s = .next s ∧ exec (.wr 0x04 0x00000000) s = .next s

/-- R129, R246: an ARM whose configuration check fails raises cause 4 with the mask of every failing check, and changes
nothing else. -/
def Obligations.ArmRefusedWithMask : Prop :=
  ∀ (s : State) (low high : Nat),
    low = (if s.sampleRate = 0 then 1
      else if s.params.refRate * 2 ^ 16 / s.sampleRate.toNat = 0 ∨
          2 ^ 32 ≤ s.params.refRate * 2 ^ 16 / s.sampleRate.toNat then 2
      else 0) →
    high = (if s.recordCount.toInt < 0 ∨ (s.params.noteDepth : Int) < s.recordCount.toInt then 4 else 0) →
    low + high ≠ 0 → exec .arm s = .next (s.raiseError .cfg (BitVec.ofNat 32 (low + high)))

/-- R130, R151, R152, R158 to R160: an ARM whose check passes latches TINC, SPT and the gains, silences every voice,
centres the pan, goes to position 0 with the countdown at 0, sets READY, and changes nothing else. -/
def Obligations.ArmInitialisesPlay : Prop :=
  ∀ s : State, s.sampleRate ≠ 0 → 1 ≤ s.params.refRate * 2 ^ 16 / s.sampleRate.toNat →
    s.params.refRate * 2 ^ 16 / s.sampleRate.toNat < 2 ^ 32 → 0 ≤ s.recordCount.toInt →
    s.recordCount.toInt ≤ s.params.noteDepth →
    ∃ u, exec .arm s = .next u ∧
      u = { s with
        tinc := u.tinc, spt := u.spt, pos := 0, cd := 0, voices := u.voices, vl := u.vl, vr := u.vr,
        vmix := u.vmix, vmixLow := u.vmixLow, ready := true } ∧
      u.tinc.toNat = s.params.refRate * 2 ^ 16 / s.sampleRate.toNat ∧
      (u.spt.toNat : Int) = max 1 ((s.sampleRate.toNat * s.tickMs.toInt).tdiv 1000) ∧
      (∀ (t : Track) (n : Slot), u.voice t n = ⟨0, 0, 0⟩) ∧
      (∀ t : Track, u.vl[t] = 32768 ∧ u.vr[t] = 32768 ∧
        u.vmix[t].toNat = gain (max (-10000) (min 0 ((s.volume[t].toInt - 300) * 8)))) ∧
      u.vmixLow.toNat =
        gain (max (-10000) (min 0 (((7 * s.volume[percussion].toInt).tdiv 10 - 300) * 8)))

/-- R129, R131: while the block plays, ARM cannot fail, and restarts playback from position 0 with every voice silent,
the pan centred, and the rates as they were. -/
def Obligations.ArmWhilePlayingRestarts : Prop :=
  ∀ s : State, s.ready = true → s.PlayLegal →
    ∃ u, exec .arm s = .next u ∧ u.ready = true ∧ u.pos = 0 ∧ u.cd = 0 ∧ u.tinc = s.tinc ∧ u.spt = s.spt ∧
      (∀ (t : Track) (n : Slot), u.voice t n = ⟨0, 0, 0⟩ ∧ u.vl[t] = 32768 ∧ u.vr[t] = 32768) ∧
      (∀ c, u.errorFlag c = s.errorFlag c) ∧ u.errCause = s.errCause ∧ u.errInfo = s.errInfo

/-- R132: DISARM, also as the write of its word to CMD, clears READY and changes nothing else. -/
def Obligations.DisarmClearsReady : Prop :=
  ∀ s : State, exec .disarm s = .next { s with ready := false } ∧
    exec (.wr 0x04 0x00000002) s = .next { s with ready := false }

/-- R134: FRAME with READY = 0, also as the write of its word to CMD, outputs (0, 0), strobes once, and changes nothing
else. -/
def Obligations.FrameNotReadyIsSilent : Prop :=
  ∀ s : State, s.ready = false →
    exec .frame s = .next { s with outL := 0, outR := 0, framePort := s.framePort ++ [⟨0, 0⟩] } ∧
    exec (.wr 0x04 0x00000003) s =
      .next { s with outL := 0, outR := 0, framePort := s.framePort ++ [⟨0, 0⟩] }

/-- R135: CLRERR, also as the write of its word to CMD, clears the five flags and the record, and changes nothing
else. -/
def Obligations.ClrerrClearsTheRecord : Prop :=
  ∀ s : State, ∀ i ∈ [Instr.clrerr, .wr 0x04 0x00000004],
    exec i s = .next { s with
      errAddr := false, errLock := false, errCmd := false, errCfg := false, errPan := false,
      errCause := 0, errInfo := 0 }

/-- R94, R136: a reserved command word raises cause 3 with the word and changes nothing else, as an instruction and as a
write to CMD. -/
def Obligations.ReservedCommandRaises : Prop :=
  ∀ (s : State) (w : Word), 4 < w.toNat →
    exec (.cmdRsvd w) s = .next (s.raiseError .cmd w) ∧ exec (.wr 0x04 w) s = .next (s.raiseError .cmd w)

/-- R23, R24, R241, R242: raising a cause sets its sticky flag and no other, records the cause and its information word
only if the record is empty, and changes nothing else. -/
def Obligations.RaiseErrorRecordsTheFirst : Prop :=
  ∀ (s : State) (c : ErrorCause) (info : Word),
    (∀ c', (s.raiseError c info).errorFlag c' = (s.errorFlag c' || decide (c' = c))) ∧
    (s.errCause = 0 →
      (s.raiseError c info).errCause =
        (match c with | .addr => 1 | .lock => 2 | .cmd => 3 | .cfg => 4 | .pan => 5) ∧
      (s.raiseError c info).errInfo = info) ∧
    (s.errCause ≠ 0 →
      (s.raiseError c info).errCause = s.errCause ∧ (s.raiseError c info).errInfo = s.errInfo) ∧
    ∃ a l m f p cause i, s.raiseError c info = { s with
      errAddr := a, errLock := l, errCmd := m, errCfg := f, errPan := p, errCause := cause, errInfo := i }

/-! ## Event words (41_sequencer.md) -/

/-- R97, R153 to R160: EV starts the slots whose bit is set, recomputes its track's gains, and changes nothing else. -/
def Obligations.EvTriggersSlots : Prop :=
  ∀ (s : State) (t : Track) (trig : BitVec 24), ∃ u, exec (.ev t trig) s = .next u ∧
    TriggersAndGains s t trig u ∧ u = { s with voices := u.voices, vmix := u.vmix, vmixLow := u.vmixLow }

/-- R97, R161: EV.PAN does what EV does, sets its track's pan multipliers from the pan table, and changes nothing
else. -/
def Obligations.EvPanSetsPan : Prop :=
  ∀ (s : State) (t : Track) (trig : BitVec 24) (p : BitVec 8) (k : Fin 8), 1 ≤ k.val → p.toNat = k.val →
    ∃ u, exec (.evPan t trig p) s = .next u ∧ TriggersAndGains s t trig u ∧
      u = { s with voices := u.voices, vmix := u.vmix, vmixLow := u.vmixLow, vl := u.vl, vr := u.vr } ∧
      u.vl[t].toNat = gain (max (-10000) (min 0 (-s.params.panTable[k]))) ∧
      u.vr[t].toNat = gain (max (-10000) (min 0 s.params.panTable[k])) ∧
      ∀ t' : Track, t' ≠ t → u.vl[t'] = s.vl[t'] ∧ u.vr[t'] = s.vr[t']

/-- R98, R162, R247: EV.RSVD does what EV does, leaves the pan multipliers, raises cause 5 with t x 256 + p, and changes
nothing else. -/
def Obligations.EvRsvdRaisesPan : Prop :=
  ∀ (s : State) (t : Track) (trig : BitVec 24) (p : BitVec 8), 8 ≤ p.toNat →
    ∃ u, exec (.evRsvd t trig p) s = .next u ∧ TriggersAndGains s t trig u ∧
      u = { s with
        voices := u.voices, vmix := u.vmix, vmixLow := u.vmixLow, errPan := true,
        errCause := if s.errCause = 0 then 5 else s.errCause,
        errInfo := if s.errCause = 0 then BitVec.ofNat 32 (t.val * 256 + p.toNat) else s.errInfo }

/-- R10, R161: of a legal pan table, index 4 leaves both channels at unity, and index 1 leaves the left at unity, attenuates
the right, and no other index attenuates the right more. -/
def Obligations.PanTableEnds : Prop :=
  ∀ (s : State) (t : Track) (trig : BitVec 24) (u : State), s.params.Valid →
    (exec (.evPan t trig 4) s = .next u → u.vl[t] = 32768 ∧ u.vr[t] = 32768) ∧
    (exec (.evPan t trig 1) s = .next u → u.vl[t] = 32768 ∧ u.vr[t].toNat < 32768 ∧
      ∀ (p : BitVec 8) (v : State), 1 ≤ p.toNat → p.toNat ≤ 7 → exec (.evPan t trig p) s = .next v →
        u.vr[t].toNat ≤ v.vr[t].toNat)

/-- R163: the position goes up by one, exactly, or to REPEAT_TICK when that reaches END_TICK; nothing else changes. -/
def Obligations.AdvancePosWraps : Prop :=
  ∀ s : State,
    s.advancePos = { s with pos := s.advancePos.pos } ∧
    (s.endTick.toInt ≤ s.pos.toInt + 1 → s.advancePos.pos = s.repeatTick) ∧
    (s.pos.toInt + 1 < s.endTick.toInt → s.advancePos.pos.toInt = s.pos.toInt + 1)

/-- R164: from position 0, whatever REPEAT_TICK = R and END_TICK = E are, the first tick reads position 0 and the ticks go
on through E - 1, if E is above 1; after that they read R, R + 1, ..., E - 1 round and round where R < E, and R for ever
where R >= E. -/
def Obligations.TimelinePositions : Prop :=
  ∀ (s : State) (k : Nat), s.pos = 0 →
    (State.tick^[k] s).pos.toInt =
      if (k : Int) < max 1 s.endTick.toInt then (k : Int)
      else if s.repeatTick.toInt < s.endTick.toInt then
        s.repeatTick.toInt + ((k : Int) - max 1 s.endTick.toInt) % (s.endTick.toInt - s.repeatTick.toInt)
      else s.repeatTick.toInt

/-! ## Gains (00_scope.md R14) -/

/-- R14: GAIN(m) is 32768 x 10^(m / 2000), rounded to nearest. -/
def Obligations.GainIsNearest : Prop :=
  ∀ m : Int, -10000 ≤ m → m ≤ 0 →
    |(gain m : ℝ) - 32768 * (10 : ℝ) ^ ((m : ℝ) / 2000)| < 1 / 2

/-! ## Frames (41_sequencer.md R150, 42, 43, 44) -/

/-- R133, R220, R221, R223 to R226: FRAME with READY = 1 runs the tick check, steps every slot once as that leaves it, adds
the contributions to each channel in track and slot order from 0, saturating each sum into [-32768, 32767], latches and
strobes the result once; besides that it changes what the tick check changed and nothing else. -/
def Obligations.FrameIsSaturatedSum : Prop :=
  ∀ s : State, s.ready = true →
    ∃ u, exec .frame s = .next u ∧
      (∀ (t : Track) (n : Slot), u.voice t n = (s.tickCheck.slotStep t n).1) ∧
      u.outL.toInt = s.tickCheck.contributions.foldl (fun acc c => max (-32768) (min 32767 (acc + c.1))) 0 ∧
      u.outR.toInt = s.tickCheck.contributions.foldl (fun acc c => max (-32768) (min 32767 (acc + c.2))) 0 ∧
      u.accL = u.outL ∧ u.accR = u.outR ∧ u.framePort = s.framePort ++ [⟨u.outL, u.outR⟩] ∧
      u = { s.tickCheck with
        voices := u.voices, accL := u.accL, accR := u.accR, outL := u.outL, outR := u.outR,
        framePort := u.framePort }

/-- R229, R249 (c): FRAME with READY = 1 completes, leaves the score, READY, the latched rates and every error flag but
ERR_PAN, and raises no cause but 5. -/
def Obligations.FrameLeavesTheRest : Prop :=
  ∀ s : State, s.ready = true →
    ∃ u, exec .frame s = .next u ∧ SameScore s u ∧ u.ready = true ∧ u.tinc = s.tinc ∧ u.spt = s.spt ∧
      u.params = s.params ∧ u.readData = s.readData ∧ u.inbox = s.inbox ∧
      u.errAddr = s.errAddr ∧ u.errLock = s.errLock ∧ u.errCmd = s.errCmd ∧ u.errCfg = s.errCfg ∧
      (u.errCause = s.errCause ∧ u.errInfo = s.errInfo ∨ s.errCause = 0 ∧ u.errCause = 5 ∧ u.errPan = true)

/-- R150: the tick check runs a tick and reloads the countdown from SPT exactly when it is 0, and counts it down by one;
from a playing state whose countdown is 0, frame k (from 0) finds it at 0, and so ticks, exactly when SPT divides k, and
it goes SPT - 1, ..., 0 in between. -/
def Obligations.TickEverySptFrames : Prop :=
  (∀ s : State, s.tickCheck = if s.cd = 0 then { s.tick with cd := s.tick.spt - 1 } else { s with cd := s.cd - 1 }) ∧
  (∀ (s : State) (k : Nat), s.ready = true → s.cd = 0 → 1 ≤ s.spt.toNat →
    exec .frame (State.renderFrame^[k] s) = .next (State.renderFrame^[k + 1] s) ∧
      (State.renderFrame^[k] s).cd.toNat = (s.spt.toNat - k % s.spt.toNat) % s.spt.toNat ∧
      ((State.renderFrame^[k] s).cd = 0 ↔ k % s.spt.toNat = 0))

/-- R180: a slot whose timer is not positive is skipped; a positive timer loses TINC, exactly, and the slot is LIVE if the
rest is positive; a skipped slot contributes nothing and keeps its phases. So a timer set to v > 0 finds its slot LIVE at
its k-th step (from 1) exactly when v - k x TINC > 0. -/
def Obligations.NoteSoundsWhileTimerLasts : Prop :=
  (∀ (tinc : Word) (v : Voice), v.timer.toInt ≤ 0 → timerStep tinc v = (v, false)) ∧
  (∀ (tinc : Word) (v : Voice), 0 < v.timer.toInt →
    (timerStep tinc v).1 = { v with timer := (timerStep tinc v).1.timer } ∧
      (timerStep tinc v).1.timer.toInt = v.timer.toInt - tinc.toNat ∧
      ((timerStep tinc v).2 = true ↔ 0 < v.timer.toInt - tinc.toNat)) ∧
  (∀ (s : State) (t : Track) (n : Slot), (timerStep s.tinc (s.voice t n)).2 = false →
    s.slotStep t n = ((timerStep s.tinc (s.voice t n)).1, none)) ∧
  (∀ (tinc : Word) (v : Voice) (k : Nat), 0 < v.timer.toInt →
    ((timerStep tinc ((fun w => (timerStep tinc w).1)^[k] v)).2 = true ↔
      0 < v.timer.toInt - (k + 1) * tinc.toNat))

/-- R182: for a live timer below LENGTH x 2^16 the envelope index is the floor of the elapsed fraction times 64, and lies
in [0, 63] without the clamp. -/
def Obligations.EnvelopeIndexInRange : Prop :=
  ∀ (length : Word) (timer : BitVec 48), 0 < timer.toInt → timer.toInt < length.toInt * 65536 →
    (envIndex length timer : Int) =
        ⌊(64 * (length.toInt * 65536 - timer.toInt) : ℚ) / (length.toInt * 65536 : ℚ)⌋ ∧
      envIndex length timer ≤ 63

/-- R181 to R189: a LIVE melodic slot (v is the slot after its timer step) takes the phase ph, keeps the rest of v, and
contributes the two floors given, in exact arithmetic on the numbers its registers and RAM bytes hold. -/
def Obligations.MelodicVoiceValue : Prop :=
  ∀ (s : State) (m : Melodic) (n : Slot) (v : Voice) (ph i0 i1 fr e : Nat) (w0 w1 : Int),
    s.sampleRate ≠ 0 → timerStep s.tinc (s.voice m.track n) = (v, true) →
    ph = (v.phase.toNat +
      (s.params.freqTable[n.val % 12]'(Nat.mod_lt _ (by decide))).toNat * 2 ^ s.octave[m].toNat /
        (if 12 ≤ n.val then 2 else 1) * s.params.refRate / s.sampleRate.toNat) % 2 ^ 32 →
    i0 = ph / 2 ^ 24 → i1 = (i0 + 2 ^ s.octave[m].toNat) % 256 → fr = ph / 2 ^ 8 % 2 ^ 16 →
    w0 = (s.ramByte (0x1000 + 0x100 * m.val + i0)).toInt → w1 = (s.ramByte (0x1000 + 0x100 * m.val + i1)).toInt →
    e = (s.ramByte (0x2000 + 0x40 * m.val + envIndex s.length[m] v.timer)).toNat →
    s.slotStep m.track n =
      ({ v with phase := BitVec.ofNat 32 ph },
        some (⌊((w0 * 2 ^ 16 + (w1 - w0) * fr : Int) * e * s.vmix[m.track].toNat *
            s.vl[m.track].toNat : ℚ) / 2 ^ 46⌋,
          ⌊((w0 * 2 ^ 16 + (w1 - w0) * fr : Int) * e * s.vmix[m.track].toNat *
            s.vr[m.track].toNat : ℚ) / 2 ^ 46⌋))

/-- R200 to R205: a LIVE percussion slot (v is the slot after its timer step) takes the position pos, keeps the rest of v,
and contributes the two floors given, in exact arithmetic; past the end of the sample it contributes nothing, and past
its last byte the second tap is the zero level. -/
def Obligations.PercussionVoiceValue : Prop :=
  ∀ (s : State) (n : Slot) (v : Voice) (pos ip fr : Nat) (drum : List Byte) (s0 s1 : Int),
    timerStep s.tinc (s.voice percussion n) = (v, true) →
    pos = v.fphase.toNat + s.tinc.toNat → pos < 2 ^ 48 → ip = pos / 2 ^ 16 → fr = pos % 2 ^ 16 →
    s.params.drums[s.params.drumMap[n]]? = some drum →
    (drum.length ≤ ip → s.slotStep percussion n = ({ v with fphase := BitVec.ofNat 48 pos }, none)) ∧
    (∀ h : ip < drum.length, s0 = (drum[ip].toNat : Int) - 128 →
      s1 = (if h' : ip + 1 < drum.length then (drum[ip + 1].toNat : Int) - 128 else 0) →
      s.slotStep percussion n =
        ({ v with fphase := BitVec.ofNat 48 pos },
          some (⌊((s0 * 2 ^ 16 + (s1 - s0) * fr : Int) *
              (if n.val % 2 = 1 then s.vmixLow.toNat else s.vmix[percussion].toNat : Nat) *
              s.vl[percussion].toNat : ℚ) / 2 ^ 38⌋,
            ⌊((s0 * 2 ^ 16 + (s1 - s0) * fr : Int) *
              (if n.val % 2 = 1 then s.vmixLow.toNat else s.vmix[percussion].toNat : Nat) *
              s.vr[percussion].toNat : ℚ) / 2 ^ 38⌋)))

/-- R190, R206, R227: with legal gains a melodic contribution lies in [-32640, 32385] and a percussion contribution in
[-32768, 32512], on both channels. -/
def Obligations.ContributionRange : Prop :=
  ∀ (s : State), s.GainsLegal →
    (∀ (m : Melodic) (n : Slot) (c : Int × Int), (s.slotStep m.track n).2 = some c →
      -32640 ≤ c.1 ∧ c.1 ≤ 32385 ∧ -32640 ≤ c.2 ∧ c.2 ≤ 32385) ∧
    (∀ (n : Slot) (c : Int × Int), (s.slotStep percussion n).2 = some c →
      -32768 ≤ c.1 ∧ c.1 ≤ 32512 ∧ -32768 ≤ c.2 ∧ c.2 ≤ 32512)

/-- R201, R207: in a playing state where timers and positions agree, a percussion slot that the timer finds LIVE always
passes the end check, so it contributes. -/
def Obligations.LiveDrumPassesEndCheck : Prop :=
  ∀ (s : State) (n : Slot), s.ready = true → s.params.Valid → s.DrumLegal →
    (timerStep s.tinc (s.voice percussion n)).2 = true → ∃ c, (s.slotStep percussion n).2 = some c

/-- R229: the step of a slot that is not LIVE, whatever else its track plays, reads none of WAVE, ENV, OCTAVE and LENGTH.
So a frame does the same whatever WAVE, ENV and OCTAVE of a track with no LIVE slot are, and whatever its LENGTH is, but
in a frame that ticks, whose triggers read LENGTH (R156). -/
def Obligations.SilentTrackRamIsUnread : Prop :=
  (∀ (s : State) (t : Track) (n : Slot) (mem' : List Host.Cell) (octave' : Vector (BitVec 8) 3)
      (length' : Vector Word 3), (timerStep s.tinc (s.voice t n)).2 = false →
    ({ s with mem := mem', octave := octave', length := length' } : State).slotStep t n = s.slotStep t n) ∧
  (∀ (s : State) (m : Melodic) (mem' : List Host.Cell) (octave' : Vector (BitVec 8) 3) (length' : Vector Word 3),
    s.ready = true →
    (∀ a, ¬ (waveAddr m 0 ≤ a ∧ a < waveAddr m 256) → ¬ (envAddr m 0 ≤ a ∧ a < envAddr m 64) →
      ({ s with mem := mem' } : State).ramByte a = s.ramByte a) →
    (∀ m' : Melodic, m' ≠ m → octave'[m'] = s.octave[m'] ∧ length'[m'] = s.length[m']) →
    (s.cd = 0 → length' = s.length) →
    (∀ n : Slot, (timerStep s.tinc (s.tickCheck.voice m.track n)).2 = false) →
    ∃ u, exec .frame s = .next u ∧
      exec .frame { s with mem := mem', octave := octave', length := length' } =
        .next { u with mem := mem', octave := octave', length := length' })

/-- R100, R139, R225: one frame of the render sink: FRAME strobes one frame, and the read of OUT_FRAME after it returns that
frame, right in the high half. (The event queue and the port fields are the model's, log entries 3 and 5.) -/
def Obligations.RenderSinkReadsTheFrame : Prop :=
  ∀ (s : State) (rest : List HostEvent), s.resetLine = false →
    s.inbox = (framesTxns 1).map HostEvent.bus ++ rest →
    ∃ u v f, step s = .next u ∧ step u = .next v ∧ u.framePort = [f] ∧ v.framePort = [] ∧ v.inbox = rest ∧
      v.readData = some (BitVec.ofNat 32 (f.right.toNat * 65536 + f.left.toNat))

/-! ## Invariants that every step keeps -/

/-- R33 to R35, R73: every step from a state whose RAM is in canonical form and lists only RAM cells keeps it so. (The list
and its form are the model's, log entry 2.) -/
def Obligations.StepKeepsMemoryLegal : Prop :=
  ∀ s u : State, s.MemoryLegal → step s = .next u → u.MemoryLegal

/-- R43 to R45, R161, R222: every step from a state where every gain is in [0, 32768] and at most one pan multiplier of a
track is below unity keeps it so. -/
def Obligations.StepKeepsGainsLegal : Prop :=
  ∀ s u : State, s.GainsLegal → s.PanLegal → step s = .next u → u.GainsLegal ∧ u.PanLegal

/-- R129, R150 to R152, R159, R160: every step keeps this: while the block plays, what ARM latched agrees with the locked
configuration, which passed its check, and the countdown is below SPT. -/
def Obligations.StepKeepsPlayLegal : Prop :=
  ∀ s u : State, s.PlayLegal → s.LatchLegal → step s = .next u → u.PlayLegal ∧ u.LatchLegal

/-- R41, R42, R156, R157, R207: every step keeps this: the parameters are legal, and while the block plays live melodic timers
are within LENGTH and live percussion timers and positions add up to the length of their sample. -/
def Obligations.StepKeepsVoicesLegal : Prop :=
  ∀ s u : State, s.params.Valid → s.MelodicLegal → s.DrumLegal → step s = .next u →
    u.params.Valid ∧ u.MelodicLegal ∧ u.DrumLegal

/-- R23, R24, R241, R242: every step keeps this: the error record is empty exactly while no flag is set, and else holds a
cause whose flag is set. -/
def Obligations.StepKeepsErrorLegal : Prop :=
  ∀ s u : State, s.ErrorLegal → step s = .next u → u.ErrorLegal

/-- R164: every step keeps this: while a well-formed loop plays, the position is inside it. -/
def Obligations.StepKeepsTimelineLegal : Prop :=
  ∀ s u : State, s.TimelineLegal → step s = .next u → u.TimelineLegal

/-! ## Rules about the whole machine -/

/-- R240, 93: every instruction completes, in every state, and so does every step; and none changes the parameters
(R48). -/
def Obligations.NothingEverStops : Prop :=
  (∀ (i : Instr) (s : State), ∃ u, exec i s = .next u ∧ u.params = s.params) ∧
  (∀ s : State, ∃ u, step s = .next u ∧ u.params = s.params)

/-- R22, R252: only ARM (the command, or a write of it to CMD) takes the block from READY = 0 to READY = 1. -/
def Obligations.OnlyArmSetsReady : Prop :=
  ∀ (i : Instr) (s u : State), exec i s = .next u → s.ready = false → u.ready = true →
    i = .arm ∨ i = .wr 0x04 1

/-- R78, R122, R229: while READY = 1 no instruction changes a configuration register or a byte of RAM. -/
def Obligations.PlayingLocksTheScore : Prop :=
  ∀ (i : Instr) (s u : State), s.ready = true → exec i s = .next u → SameScore s u

/-- R52, R74, R123: no bus read, and no bus write but one to CMD, reaches the play state, READY or the frame port. -/
def Obligations.BusAccessesLeavePlayState : Prop :=
  ∀ (i : Instr) (s u : State), ((∃ a, i = .rd a) ∨ ∃ a d, i = .wr a d ∧ a ≠ 0x04) → exec i s = .next u →
    SamePlayState s u ∧ u.ready = s.ready ∧ u.framePort = s.framePort

/-- R75, R225: FRAME, whatever READY is, strobes the frame port exactly once, with the latched frame; no other instruction
strobes it. (The field that holds the strobes of a step is the model's, log entry 5.) -/
def Obligations.OnlyFrameStrobes : Prop :=
  ∀ (i : Instr) (s u : State), exec i s = .next u →
    (i = .frame ∨ i = .wr 0x04 3 → u.framePort = s.framePort ++ [⟨u.outL, u.outR⟩]) ∧
    (i ≠ .frame → i ≠ .wr 0x04 3 → u.framePort = s.framePort)

/-- R23, R241, R251: no instruction but CLRERR clears a sticky flag or changes a record that is not empty. -/
def Obligations.ErrorsAreSticky : Prop :=
  ∀ (i : Instr) (s u : State), exec i s = .next u → i ≠ .clrerr → i ≠ .wr 0x04 4 →
    (∀ c, s.errorFlag c = true → u.errorFlag c = true) ∧
    (s.errCause ≠ 0 → u.errCause = s.errCause ∧ u.errInfo = s.errInfo)

/-! ## The host's load (40_host_bus.md R138) -/

/-- R138: a load of an image with a short read ends with READY = 0, whatever the block held before. (Of images that count
more event words than the largest NOTE RAM holds it says nothing: past 2^18 words the address the host computes is no
longer a track's own, log entry 15.) -/
def Obligations.TruncatedLoadNeverPlays : Prop :=
  ∀ (s : State) (image : List Byte) (rate : Word), s.inbox = [] → s.resetLine = false →
    imageRecordCount image ≤ 262144 → image.length < imageSize image →
    ∃ u, Host.Core.run Sys2Proof.core (loadTxns image rate).length (s.issue (loadTxns image rate)) = .next u ∧
      u.ready = false ∧ u.inbox = []
end

