-- ==== Sys2Proof/Laws/Encoding.lean ====
section
/-! SUPPORT. What the shared parts of the decoder and the encoder do: bytes and numbers, and the fields of an event
word. -/

namespace Sys2Proof

/-! ## Bytes -/

/-- Reading the bytes of a number that fits gives it back. -/
theorem numOfBytes_bytesOfNum (k n : Nat) (h : n < 256 ^ k) : numOfBytes (bytesOfNum k n) = n := by
  induction k generalizing n with
  | zero => simp at h; simp [bytesOfNum, numOfBytes, h]
  | succ k ih =>
    simp only [bytesOfNum, numOfBytes]
    rw [ih (n / 256) (by rw [pow_succ] at h; omega)]
    simp; omega

@[simp] theorem length_bytesOfNum (k n : Nat) : (bytesOfNum k n).length = k := by
  induction k generalizing n with
  | zero => rfl
  | succ k ih => simp [bytesOfNum, ih]

/-- The bytes of a code, at its place, are that code. -/
theorem codeOfBytes_bytes (c : Code) : codeOfBytes c.place c.bytes = some c := by
  rcases c with (a | ⟨a, d⟩) | ⟨t, w⟩
  · simp [Code.place, Code.bytes, codeOfBytes, numOfBytes_bytesOfNum 3 a.toNat a.isLt]
  · have h3 : (bytesOfNum 3 a.toNat ++ bytesOfNum 4 d.toNat).take 3 = bytesOfNum 3 a.toNat := by simp
    have h4 : (bytesOfNum 3 a.toNat ++ bytesOfNum 4 d.toNat).drop 3 = bytesOfNum 4 d.toNat := by simp
    simp only [Code.place, Code.bytes, codeOfBytes, h3, h4, numOfBytes_bytesOfNum 3 a.toNat a.isLt,
      numOfBytes_bytesOfNum 4 d.toNat d.isLt]
    simp
  · simp [Code.place, Code.bytes, codeOfBytes, numOfBytes_bytesOfNum 4 w.toNat w.isLt]

/-! ## Event words (R95) -/

/-- The bits of an event word: the trigger mask below, the pan field above. -/
theorem eventWord_getLsbD (trig : BitVec 24) (p : BitVec 8) (i : Nat) :
    (eventWord trig p).getLsbD i = if i < 24 then trig.getLsbD i else p.getLsbD (i - 24) := by
  have h : (p ++ trig).getLsbD i = if i < 24 then trig.getLsbD i else p.getLsbD (i - 24) :=
    BitVec.getLsbD_append
  exact h

@[simp] theorem eventPan_eventWord (trig : BitVec 24) (p : BitVec 8) : eventPan (eventWord trig p) = p := by
  apply BitVec.eq_of_getLsbD_eq
  intro i hi
  simp only [eventPan, BitVec.getLsbD_extractLsb', eventWord_getLsbD, hi]
  simp

@[simp] theorem eventTrig_eventWord (trig : BitVec 24) (p : BitVec 8) : eventTrig (eventWord trig p) = trig := by
  apply BitVec.eq_of_getLsbD_eq
  intro i hi
  simp only [eventTrig, BitVec.getLsbD_extractLsb', eventWord_getLsbD, hi]
  simp [hi]

/-- An event word is its two fields. -/
theorem eventWord_fields (w : Word) : eventWord (eventTrig w) (eventPan w) = w := by
  apply BitVec.eq_of_getLsbD_eq
  intro i hi
  rw [eventWord_getLsbD]
  unfold eventTrig eventPan
  split
  · simp only [BitVec.getLsbD_extractLsb']; simp_all
  · simp only [BitVec.getLsbD_extractLsb']
    rw [show 24 + (i - 24) = i by omega]
    simp; omega

end Sys2Proof
end

