-- ==== Sys2Proof/Laws/State.lean ====
section
/-! SUPPORT. What each record update of the machine does to each field: one lemma a field and update, true by
definition, so that no later proof unfolds an update. -/

namespace Sys2Proof.Machine

/-! ## setVoice -/

@[simp] theorem State.setVoice_pos (s : State) (t : Track) (n : Slot) (v : Voice) :
    (s.setVoice t n v).pos =
    s.pos := rfl
@[simp] theorem State.setVoice_ready (s : State) (t : Track) (n : Slot) (v : Voice) :
    (s.setVoice t n v).ready =
    s.ready := rfl
@[simp] theorem State.setVoice_errAddr (s : State) (t : Track) (n : Slot) (v : Voice) :
    (s.setVoice t n v).errAddr =
    s.errAddr := rfl
@[simp] theorem State.setVoice_errLock (s : State) (t : Track) (n : Slot) (v : Voice) :
    (s.setVoice t n v).errLock =
    s.errLock := rfl
@[simp] theorem State.setVoice_errCmd (s : State) (t : Track) (n : Slot) (v : Voice) :
    (s.setVoice t n v).errCmd =
    s.errCmd := rfl
@[simp] theorem State.setVoice_errCfg (s : State) (t : Track) (n : Slot) (v : Voice) :
    (s.setVoice t n v).errCfg =
    s.errCfg := rfl
@[simp] theorem State.setVoice_errPan (s : State) (t : Track) (n : Slot) (v : Voice) :
    (s.setVoice t n v).errPan =
    s.errPan := rfl
@[simp] theorem State.setVoice_errCause (s : State) (t : Track) (n : Slot) (v : Voice) :
    (s.setVoice t n v).errCause =
    s.errCause := rfl
@[simp] theorem State.setVoice_errInfo (s : State) (t : Track) (n : Slot) (v : Voice) :
    (s.setVoice t n v).errInfo =
    s.errInfo := rfl
@[simp] theorem State.setVoice_sampleRate (s : State) (t : Track) (n : Slot) (v : Voice) :
    (s.setVoice t n v).sampleRate =
    s.sampleRate := rfl
@[simp] theorem State.setVoice_tickMs (s : State) (t : Track) (n : Slot) (v : Voice) :
    (s.setVoice t n v).tickMs =
    s.tickMs := rfl
@[simp] theorem State.setVoice_repeatTick (s : State) (t : Track) (n : Slot) (v : Voice) :
    (s.setVoice t n v).repeatTick =
    s.repeatTick := rfl
@[simp] theorem State.setVoice_endTick (s : State) (t : Track) (n : Slot) (v : Voice) :
    (s.setVoice t n v).endTick =
    s.endTick := rfl
@[simp] theorem State.setVoice_recordCount (s : State) (t : Track) (n : Slot) (v : Voice) :
    (s.setVoice t n v).recordCount =
    s.recordCount := rfl
@[simp] theorem State.setVoice_octave (s : State) (t : Track) (n : Slot) (v : Voice) :
    (s.setVoice t n v).octave =
    s.octave := rfl
@[simp] theorem State.setVoice_length (s : State) (t : Track) (n : Slot) (v : Voice) :
    (s.setVoice t n v).length =
    s.length := rfl
@[simp] theorem State.setVoice_volume (s : State) (t : Track) (n : Slot) (v : Voice) :
    (s.setVoice t n v).volume =
    s.volume := rfl
@[simp] theorem State.setVoice_mem (s : State) (t : Track) (n : Slot) (v : Voice) :
    (s.setVoice t n v).mem =
    s.mem := rfl
@[simp] theorem State.setVoice_tinc (s : State) (t : Track) (n : Slot) (v : Voice) :
    (s.setVoice t n v).tinc =
    s.tinc := rfl
@[simp] theorem State.setVoice_spt (s : State) (t : Track) (n : Slot) (v : Voice) :
    (s.setVoice t n v).spt =
    s.spt := rfl
@[simp] theorem State.setVoice_cd (s : State) (t : Track) (n : Slot) (v : Voice) :
    (s.setVoice t n v).cd =
    s.cd := rfl
@[simp] theorem State.setVoice_voices (s : State) (t : Track) (n : Slot) (v : Voice) :
    (s.setVoice t n v).voices =
    s.voices.set t.val (s.voices[t].set n.val v) := rfl
@[simp] theorem State.setVoice_vmix (s : State) (t : Track) (n : Slot) (v : Voice) :
    (s.setVoice t n v).vmix =
    s.vmix := rfl
@[simp] theorem State.setVoice_vmixLow (s : State) (t : Track) (n : Slot) (v : Voice) :
    (s.setVoice t n v).vmixLow =
    s.vmixLow := rfl
@[simp] theorem State.setVoice_vl (s : State) (t : Track) (n : Slot) (v : Voice) :
    (s.setVoice t n v).vl =
    s.vl := rfl
@[simp] theorem State.setVoice_vr (s : State) (t : Track) (n : Slot) (v : Voice) :
    (s.setVoice t n v).vr =
    s.vr := rfl
@[simp] theorem State.setVoice_accL (s : State) (t : Track) (n : Slot) (v : Voice) :
    (s.setVoice t n v).accL =
    s.accL := rfl
@[simp] theorem State.setVoice_accR (s : State) (t : Track) (n : Slot) (v : Voice) :
    (s.setVoice t n v).accR =
    s.accR := rfl
@[simp] theorem State.setVoice_outL (s : State) (t : Track) (n : Slot) (v : Voice) :
    (s.setVoice t n v).outL =
    s.outL := rfl
@[simp] theorem State.setVoice_outR (s : State) (t : Track) (n : Slot) (v : Voice) :
    (s.setVoice t n v).outR =
    s.outR := rfl
@[simp] theorem State.setVoice_params (s : State) (t : Track) (n : Slot) (v : Voice) :
    (s.setVoice t n v).params =
    s.params := rfl
@[simp] theorem State.setVoice_powerEpoch (s : State) (t : Track) (n : Slot) (v : Voice) :
    (s.setVoice t n v).powerEpoch =
    s.powerEpoch := rfl
@[simp] theorem State.setVoice_resetLine (s : State) (t : Track) (n : Slot) (v : Voice) :
    (s.setVoice t n v).resetLine =
    s.resetLine := rfl
@[simp] theorem State.setVoice_inbox (s : State) (t : Track) (n : Slot) (v : Voice) :
    (s.setVoice t n v).inbox =
    s.inbox := rfl
@[simp] theorem State.setVoice_readData (s : State) (t : Track) (n : Slot) (v : Voice) :
    (s.setVoice t n v).readData =
    s.readData := rfl
@[simp] theorem State.setVoice_framePort (s : State) (t : Track) (n : Slot) (v : Voice) :
    (s.setVoice t n v).framePort =
    s.framePort := rfl

/-! ## writeRamWord -/

@[simp] theorem State.writeRamWord_pos (s : State) (a : Nat) (d : Word) :
    (s.writeRamWord a d).pos =
    s.pos := rfl
@[simp] theorem State.writeRamWord_ready (s : State) (a : Nat) (d : Word) :
    (s.writeRamWord a d).ready =
    s.ready := rfl
@[simp] theorem State.writeRamWord_errAddr (s : State) (a : Nat) (d : Word) :
    (s.writeRamWord a d).errAddr =
    s.errAddr := rfl
@[simp] theorem State.writeRamWord_errLock (s : State) (a : Nat) (d : Word) :
    (s.writeRamWord a d).errLock =
    s.errLock := rfl
@[simp] theorem State.writeRamWord_errCmd (s : State) (a : Nat) (d : Word) :
    (s.writeRamWord a d).errCmd =
    s.errCmd := rfl
@[simp] theorem State.writeRamWord_errCfg (s : State) (a : Nat) (d : Word) :
    (s.writeRamWord a d).errCfg =
    s.errCfg := rfl
@[simp] theorem State.writeRamWord_errPan (s : State) (a : Nat) (d : Word) :
    (s.writeRamWord a d).errPan =
    s.errPan := rfl
@[simp] theorem State.writeRamWord_errCause (s : State) (a : Nat) (d : Word) :
    (s.writeRamWord a d).errCause =
    s.errCause := rfl
@[simp] theorem State.writeRamWord_errInfo (s : State) (a : Nat) (d : Word) :
    (s.writeRamWord a d).errInfo =
    s.errInfo := rfl
@[simp] theorem State.writeRamWord_sampleRate (s : State) (a : Nat) (d : Word) :
    (s.writeRamWord a d).sampleRate =
    s.sampleRate := rfl
@[simp] theorem State.writeRamWord_tickMs (s : State) (a : Nat) (d : Word) :
    (s.writeRamWord a d).tickMs =
    s.tickMs := rfl
@[simp] theorem State.writeRamWord_repeatTick (s : State) (a : Nat) (d : Word) :
    (s.writeRamWord a d).repeatTick =
    s.repeatTick := rfl
@[simp] theorem State.writeRamWord_endTick (s : State) (a : Nat) (d : Word) :
    (s.writeRamWord a d).endTick =
    s.endTick := rfl
@[simp] theorem State.writeRamWord_recordCount (s : State) (a : Nat) (d : Word) :
    (s.writeRamWord a d).recordCount =
    s.recordCount := rfl
@[simp] theorem State.writeRamWord_octave (s : State) (a : Nat) (d : Word) :
    (s.writeRamWord a d).octave =
    s.octave := rfl
@[simp] theorem State.writeRamWord_length (s : State) (a : Nat) (d : Word) :
    (s.writeRamWord a d).length =
    s.length := rfl
@[simp] theorem State.writeRamWord_volume (s : State) (a : Nat) (d : Word) :
    (s.writeRamWord a d).volume =
    s.volume := rfl
@[simp] theorem State.writeRamWord_mem (s : State) (a : Nat) (d : Word) :
    (s.writeRamWord a d).mem =
    Memory.writeWord s.mem a d := rfl
@[simp] theorem State.writeRamWord_tinc (s : State) (a : Nat) (d : Word) :
    (s.writeRamWord a d).tinc =
    s.tinc := rfl
@[simp] theorem State.writeRamWord_spt (s : State) (a : Nat) (d : Word) :
    (s.writeRamWord a d).spt =
    s.spt := rfl
@[simp] theorem State.writeRamWord_cd (s : State) (a : Nat) (d : Word) : (s.writeRamWord a d).cd = s.cd := rfl
@[simp] theorem State.writeRamWord_voices (s : State) (a : Nat) (d : Word) :
    (s.writeRamWord a d).voices =
    s.voices := rfl
@[simp] theorem State.writeRamWord_vmix (s : State) (a : Nat) (d : Word) :
    (s.writeRamWord a d).vmix =
    s.vmix := rfl
@[simp] theorem State.writeRamWord_vmixLow (s : State) (a : Nat) (d : Word) :
    (s.writeRamWord a d).vmixLow =
    s.vmixLow := rfl
@[simp] theorem State.writeRamWord_vl (s : State) (a : Nat) (d : Word) : (s.writeRamWord a d).vl = s.vl := rfl
@[simp] theorem State.writeRamWord_vr (s : State) (a : Nat) (d : Word) : (s.writeRamWord a d).vr = s.vr := rfl
@[simp] theorem State.writeRamWord_accL (s : State) (a : Nat) (d : Word) :
    (s.writeRamWord a d).accL =
    s.accL := rfl
@[simp] theorem State.writeRamWord_accR (s : State) (a : Nat) (d : Word) :
    (s.writeRamWord a d).accR =
    s.accR := rfl
@[simp] theorem State.writeRamWord_outL (s : State) (a : Nat) (d : Word) :
    (s.writeRamWord a d).outL =
    s.outL := rfl
@[simp] theorem State.writeRamWord_outR (s : State) (a : Nat) (d : Word) :
    (s.writeRamWord a d).outR =
    s.outR := rfl
@[simp] theorem State.writeRamWord_params (s : State) (a : Nat) (d : Word) :
    (s.writeRamWord a d).params =
    s.params := rfl
@[simp] theorem State.writeRamWord_powerEpoch (s : State) (a : Nat) (d : Word) :
    (s.writeRamWord a d).powerEpoch =
    s.powerEpoch := rfl
@[simp] theorem State.writeRamWord_resetLine (s : State) (a : Nat) (d : Word) :
    (s.writeRamWord a d).resetLine =
    s.resetLine := rfl
@[simp] theorem State.writeRamWord_inbox (s : State) (a : Nat) (d : Word) :
    (s.writeRamWord a d).inbox =
    s.inbox := rfl
@[simp] theorem State.writeRamWord_readData (s : State) (a : Nat) (d : Word) :
    (s.writeRamWord a d).readData =
    s.readData := rfl
@[simp] theorem State.writeRamWord_framePort (s : State) (a : Nat) (d : Word) :
    (s.writeRamWord a d).framePort =
    s.framePort := rfl

/-! ## clearErrors -/

@[simp] theorem State.clearErrors_pos (s : State) : (s.clearErrors).pos = s.pos := rfl
@[simp] theorem State.clearErrors_ready (s : State) : (s.clearErrors).ready = s.ready := rfl
@[simp] theorem State.clearErrors_errAddr (s : State) : (s.clearErrors).errAddr = false := rfl
@[simp] theorem State.clearErrors_errLock (s : State) : (s.clearErrors).errLock = false := rfl
@[simp] theorem State.clearErrors_errCmd (s : State) : (s.clearErrors).errCmd = false := rfl
@[simp] theorem State.clearErrors_errCfg (s : State) : (s.clearErrors).errCfg = false := rfl
@[simp] theorem State.clearErrors_errPan (s : State) : (s.clearErrors).errPan = false := rfl
@[simp] theorem State.clearErrors_errCause (s : State) : (s.clearErrors).errCause = 0 := rfl
@[simp] theorem State.clearErrors_errInfo (s : State) : (s.clearErrors).errInfo = 0 := rfl
@[simp] theorem State.clearErrors_sampleRate (s : State) : (s.clearErrors).sampleRate = s.sampleRate := rfl
@[simp] theorem State.clearErrors_tickMs (s : State) : (s.clearErrors).tickMs = s.tickMs := rfl
@[simp] theorem State.clearErrors_repeatTick (s : State) : (s.clearErrors).repeatTick = s.repeatTick := rfl
@[simp] theorem State.clearErrors_endTick (s : State) : (s.clearErrors).endTick = s.endTick := rfl
@[simp] theorem State.clearErrors_recordCount (s : State) : (s.clearErrors).recordCount = s.recordCount := rfl
@[simp] theorem State.clearErrors_octave (s : State) : (s.clearErrors).octave = s.octave := rfl
@[simp] theorem State.clearErrors_length (s : State) : (s.clearErrors).length = s.length := rfl
@[simp] theorem State.clearErrors_volume (s : State) : (s.clearErrors).volume = s.volume := rfl
@[simp] theorem State.clearErrors_mem (s : State) : (s.clearErrors).mem = s.mem := rfl
@[simp] theorem State.clearErrors_tinc (s : State) : (s.clearErrors).tinc = s.tinc := rfl
@[simp] theorem State.clearErrors_spt (s : State) : (s.clearErrors).spt = s.spt := rfl
@[simp] theorem State.clearErrors_cd (s : State) : (s.clearErrors).cd = s.cd := rfl
@[simp] theorem State.clearErrors_voices (s : State) : (s.clearErrors).voices = s.voices := rfl
@[simp] theorem State.clearErrors_vmix (s : State) : (s.clearErrors).vmix = s.vmix := rfl
@[simp] theorem State.clearErrors_vmixLow (s : State) : (s.clearErrors).vmixLow = s.vmixLow := rfl
@[simp] theorem State.clearErrors_vl (s : State) : (s.clearErrors).vl = s.vl := rfl
@[simp] theorem State.clearErrors_vr (s : State) : (s.clearErrors).vr = s.vr := rfl
@[simp] theorem State.clearErrors_accL (s : State) : (s.clearErrors).accL = s.accL := rfl
@[simp] theorem State.clearErrors_accR (s : State) : (s.clearErrors).accR = s.accR := rfl
@[simp] theorem State.clearErrors_outL (s : State) : (s.clearErrors).outL = s.outL := rfl
@[simp] theorem State.clearErrors_outR (s : State) : (s.clearErrors).outR = s.outR := rfl
@[simp] theorem State.clearErrors_params (s : State) : (s.clearErrors).params = s.params := rfl
@[simp] theorem State.clearErrors_powerEpoch (s : State) : (s.clearErrors).powerEpoch = s.powerEpoch := rfl
@[simp] theorem State.clearErrors_resetLine (s : State) : (s.clearErrors).resetLine = s.resetLine := rfl
@[simp] theorem State.clearErrors_inbox (s : State) : (s.clearErrors).inbox = s.inbox := rfl
@[simp] theorem State.clearErrors_readData (s : State) : (s.clearErrors).readData = s.readData := rfl
@[simp] theorem State.clearErrors_framePort (s : State) : (s.clearErrors).framePort = s.framePort := rfl

/-! ## strobe -/

@[simp] theorem State.strobe_pos (s : State) : (s.strobe).pos = s.pos := rfl
@[simp] theorem State.strobe_ready (s : State) : (s.strobe).ready = s.ready := rfl
@[simp] theorem State.strobe_errAddr (s : State) : (s.strobe).errAddr = s.errAddr := rfl
@[simp] theorem State.strobe_errLock (s : State) : (s.strobe).errLock = s.errLock := rfl
@[simp] theorem State.strobe_errCmd (s : State) : (s.strobe).errCmd = s.errCmd := rfl
@[simp] theorem State.strobe_errCfg (s : State) : (s.strobe).errCfg = s.errCfg := rfl
@[simp] theorem State.strobe_errPan (s : State) : (s.strobe).errPan = s.errPan := rfl
@[simp] theorem State.strobe_errCause (s : State) : (s.strobe).errCause = s.errCause := rfl
@[simp] theorem State.strobe_errInfo (s : State) : (s.strobe).errInfo = s.errInfo := rfl
@[simp] theorem State.strobe_sampleRate (s : State) : (s.strobe).sampleRate = s.sampleRate := rfl
@[simp] theorem State.strobe_tickMs (s : State) : (s.strobe).tickMs = s.tickMs := rfl
@[simp] theorem State.strobe_repeatTick (s : State) : (s.strobe).repeatTick = s.repeatTick := rfl
@[simp] theorem State.strobe_endTick (s : State) : (s.strobe).endTick = s.endTick := rfl
@[simp] theorem State.strobe_recordCount (s : State) : (s.strobe).recordCount = s.recordCount := rfl
@[simp] theorem State.strobe_octave (s : State) : (s.strobe).octave = s.octave := rfl
@[simp] theorem State.strobe_length (s : State) : (s.strobe).length = s.length := rfl
@[simp] theorem State.strobe_volume (s : State) : (s.strobe).volume = s.volume := rfl
@[simp] theorem State.strobe_mem (s : State) : (s.strobe).mem = s.mem := rfl
@[simp] theorem State.strobe_tinc (s : State) : (s.strobe).tinc = s.tinc := rfl
@[simp] theorem State.strobe_spt (s : State) : (s.strobe).spt = s.spt := rfl
@[simp] theorem State.strobe_cd (s : State) : (s.strobe).cd = s.cd := rfl
@[simp] theorem State.strobe_voices (s : State) : (s.strobe).voices = s.voices := rfl
@[simp] theorem State.strobe_vmix (s : State) : (s.strobe).vmix = s.vmix := rfl
@[simp] theorem State.strobe_vmixLow (s : State) : (s.strobe).vmixLow = s.vmixLow := rfl
@[simp] theorem State.strobe_vl (s : State) : (s.strobe).vl = s.vl := rfl
@[simp] theorem State.strobe_vr (s : State) : (s.strobe).vr = s.vr := rfl
@[simp] theorem State.strobe_accL (s : State) : (s.strobe).accL = s.accL := rfl
@[simp] theorem State.strobe_accR (s : State) : (s.strobe).accR = s.accR := rfl
@[simp] theorem State.strobe_outL (s : State) : (s.strobe).outL = s.outL := rfl
@[simp] theorem State.strobe_outR (s : State) : (s.strobe).outR = s.outR := rfl
@[simp] theorem State.strobe_params (s : State) : (s.strobe).params = s.params := rfl
@[simp] theorem State.strobe_powerEpoch (s : State) : (s.strobe).powerEpoch = s.powerEpoch := rfl
@[simp] theorem State.strobe_resetLine (s : State) : (s.strobe).resetLine = s.resetLine := rfl
@[simp] theorem State.strobe_inbox (s : State) : (s.strobe).inbox = s.inbox := rfl
@[simp] theorem State.strobe_readData (s : State) : (s.strobe).readData = s.readData := rfl
@[simp] theorem State.strobe_framePort (s : State) :
    (s.strobe).framePort =
    s.framePort ++ [⟨s.outL, s.outR⟩] := rfl

/-! ## setPan -/

@[simp] theorem State.setPan_pos (s : State) (t : Track) (q : Int) : (s.setPan t q).pos = s.pos := rfl
@[simp] theorem State.setPan_ready (s : State) (t : Track) (q : Int) : (s.setPan t q).ready = s.ready := rfl
@[simp] theorem State.setPan_errAddr (s : State) (t : Track) (q : Int) :
    (s.setPan t q).errAddr =
    s.errAddr := rfl
@[simp] theorem State.setPan_errLock (s : State) (t : Track) (q : Int) :
    (s.setPan t q).errLock =
    s.errLock := rfl
@[simp] theorem State.setPan_errCmd (s : State) (t : Track) (q : Int) :
    (s.setPan t q).errCmd =
    s.errCmd := rfl
@[simp] theorem State.setPan_errCfg (s : State) (t : Track) (q : Int) :
    (s.setPan t q).errCfg =
    s.errCfg := rfl
@[simp] theorem State.setPan_errPan (s : State) (t : Track) (q : Int) :
    (s.setPan t q).errPan =
    s.errPan := rfl
@[simp] theorem State.setPan_errCause (s : State) (t : Track) (q : Int) :
    (s.setPan t q).errCause =
    s.errCause := rfl
@[simp] theorem State.setPan_errInfo (s : State) (t : Track) (q : Int) :
    (s.setPan t q).errInfo =
    s.errInfo := rfl
@[simp] theorem State.setPan_sampleRate (s : State) (t : Track) (q : Int) :
    (s.setPan t q).sampleRate =
    s.sampleRate := rfl
@[simp] theorem State.setPan_tickMs (s : State) (t : Track) (q : Int) :
    (s.setPan t q).tickMs =
    s.tickMs := rfl
@[simp] theorem State.setPan_repeatTick (s : State) (t : Track) (q : Int) :
    (s.setPan t q).repeatTick =
    s.repeatTick := rfl
@[simp] theorem State.setPan_endTick (s : State) (t : Track) (q : Int) :
    (s.setPan t q).endTick =
    s.endTick := rfl
@[simp] theorem State.setPan_recordCount (s : State) (t : Track) (q : Int) :
    (s.setPan t q).recordCount =
    s.recordCount := rfl
@[simp] theorem State.setPan_octave (s : State) (t : Track) (q : Int) :
    (s.setPan t q).octave =
    s.octave := rfl
@[simp] theorem State.setPan_length (s : State) (t : Track) (q : Int) :
    (s.setPan t q).length =
    s.length := rfl
@[simp] theorem State.setPan_volume (s : State) (t : Track) (q : Int) :
    (s.setPan t q).volume =
    s.volume := rfl
@[simp] theorem State.setPan_mem (s : State) (t : Track) (q : Int) : (s.setPan t q).mem = s.mem := rfl
@[simp] theorem State.setPan_tinc (s : State) (t : Track) (q : Int) : (s.setPan t q).tinc = s.tinc := rfl
@[simp] theorem State.setPan_spt (s : State) (t : Track) (q : Int) : (s.setPan t q).spt = s.spt := rfl
@[simp] theorem State.setPan_cd (s : State) (t : Track) (q : Int) : (s.setPan t q).cd = s.cd := rfl
@[simp] theorem State.setPan_voices (s : State) (t : Track) (q : Int) :
    (s.setPan t q).voices =
    s.voices := rfl
@[simp] theorem State.setPan_vmix (s : State) (t : Track) (q : Int) : (s.setPan t q).vmix = s.vmix := rfl
@[simp] theorem State.setPan_vmixLow (s : State) (t : Track) (q : Int) :
    (s.setPan t q).vmixLow =
    s.vmixLow := rfl
@[simp] theorem State.setPan_vl (s : State) (t : Track) (q : Int) :
    (s.setPan t q).vl =
    s.vl.set t.val (gainReg (-q)) := rfl
@[simp] theorem State.setPan_vr (s : State) (t : Track) (q : Int) :
    (s.setPan t q).vr =
    s.vr.set t.val (gainReg q) := rfl
@[simp] theorem State.setPan_accL (s : State) (t : Track) (q : Int) : (s.setPan t q).accL = s.accL := rfl
@[simp] theorem State.setPan_accR (s : State) (t : Track) (q : Int) : (s.setPan t q).accR = s.accR := rfl
@[simp] theorem State.setPan_outL (s : State) (t : Track) (q : Int) : (s.setPan t q).outL = s.outL := rfl
@[simp] theorem State.setPan_outR (s : State) (t : Track) (q : Int) : (s.setPan t q).outR = s.outR := rfl
@[simp] theorem State.setPan_params (s : State) (t : Track) (q : Int) :
    (s.setPan t q).params =
    s.params := rfl
@[simp] theorem State.setPan_powerEpoch (s : State) (t : Track) (q : Int) :
    (s.setPan t q).powerEpoch =
    s.powerEpoch := rfl
@[simp] theorem State.setPan_resetLine (s : State) (t : Track) (q : Int) :
    (s.setPan t q).resetLine =
    s.resetLine := rfl
@[simp] theorem State.setPan_inbox (s : State) (t : Track) (q : Int) : (s.setPan t q).inbox = s.inbox := rfl
@[simp] theorem State.setPan_readData (s : State) (t : Track) (q : Int) :
    (s.setPan t q).readData =
    s.readData := rfl
@[simp] theorem State.setPan_framePort (s : State) (t : Track) (q : Int) :
    (s.setPan t q).framePort =
    s.framePort := rfl

/-! ## accumulate -/

@[simp] theorem State.accumulate_pos (s : State) (c : Int × Int) : (s.accumulate c).pos = s.pos := rfl
@[simp] theorem State.accumulate_ready (s : State) (c : Int × Int) : (s.accumulate c).ready = s.ready := rfl
@[simp] theorem State.accumulate_errAddr (s : State) (c : Int × Int) :
    (s.accumulate c).errAddr =
    s.errAddr := rfl
@[simp] theorem State.accumulate_errLock (s : State) (c : Int × Int) :
    (s.accumulate c).errLock =
    s.errLock := rfl
@[simp] theorem State.accumulate_errCmd (s : State) (c : Int × Int) :
    (s.accumulate c).errCmd =
    s.errCmd := rfl
@[simp] theorem State.accumulate_errCfg (s : State) (c : Int × Int) :
    (s.accumulate c).errCfg =
    s.errCfg := rfl
@[simp] theorem State.accumulate_errPan (s : State) (c : Int × Int) :
    (s.accumulate c).errPan =
    s.errPan := rfl
@[simp] theorem State.accumulate_errCause (s : State) (c : Int × Int) :
    (s.accumulate c).errCause =
    s.errCause := rfl
@[simp] theorem State.accumulate_errInfo (s : State) (c : Int × Int) :
    (s.accumulate c).errInfo =
    s.errInfo := rfl
@[simp] theorem State.accumulate_sampleRate (s : State) (c : Int × Int) :
    (s.accumulate c).sampleRate =
    s.sampleRate := rfl
@[simp] theorem State.accumulate_tickMs (s : State) (c : Int × Int) :
    (s.accumulate c).tickMs =
    s.tickMs := rfl
@[simp] theorem State.accumulate_repeatTick (s : State) (c : Int × Int) :
    (s.accumulate c).repeatTick =
    s.repeatTick := rfl
@[simp] theorem State.accumulate_endTick (s : State) (c : Int × Int) :
    (s.accumulate c).endTick =
    s.endTick := rfl
@[simp] theorem State.accumulate_recordCount (s : State) (c : Int × Int) :
    (s.accumulate c).recordCount =
    s.recordCount := rfl
@[simp] theorem State.accumulate_octave (s : State) (c : Int × Int) :
    (s.accumulate c).octave =
    s.octave := rfl
@[simp] theorem State.accumulate_length (s : State) (c : Int × Int) :
    (s.accumulate c).length =
    s.length := rfl
@[simp] theorem State.accumulate_volume (s : State) (c : Int × Int) :
    (s.accumulate c).volume =
    s.volume := rfl
@[simp] theorem State.accumulate_mem (s : State) (c : Int × Int) : (s.accumulate c).mem = s.mem := rfl
@[simp] theorem State.accumulate_tinc (s : State) (c : Int × Int) : (s.accumulate c).tinc = s.tinc := rfl
@[simp] theorem State.accumulate_spt (s : State) (c : Int × Int) : (s.accumulate c).spt = s.spt := rfl
@[simp] theorem State.accumulate_cd (s : State) (c : Int × Int) : (s.accumulate c).cd = s.cd := rfl
@[simp] theorem State.accumulate_voices (s : State) (c : Int × Int) :
    (s.accumulate c).voices =
    s.voices := rfl
@[simp] theorem State.accumulate_vmix (s : State) (c : Int × Int) : (s.accumulate c).vmix = s.vmix := rfl
@[simp] theorem State.accumulate_vmixLow (s : State) (c : Int × Int) :
    (s.accumulate c).vmixLow =
    s.vmixLow := rfl
@[simp] theorem State.accumulate_vl (s : State) (c : Int × Int) : (s.accumulate c).vl = s.vl := rfl
@[simp] theorem State.accumulate_vr (s : State) (c : Int × Int) : (s.accumulate c).vr = s.vr := rfl
@[simp] theorem State.accumulate_accL (s : State) (c : Int × Int) :
    (s.accumulate c).accL =
    addSat s.accL c.1 := rfl
@[simp] theorem State.accumulate_accR (s : State) (c : Int × Int) :
    (s.accumulate c).accR =
    addSat s.accR c.2 := rfl
@[simp] theorem State.accumulate_outL (s : State) (c : Int × Int) : (s.accumulate c).outL = s.outL := rfl
@[simp] theorem State.accumulate_outR (s : State) (c : Int × Int) : (s.accumulate c).outR = s.outR := rfl
@[simp] theorem State.accumulate_params (s : State) (c : Int × Int) :
    (s.accumulate c).params =
    s.params := rfl
@[simp] theorem State.accumulate_powerEpoch (s : State) (c : Int × Int) :
    (s.accumulate c).powerEpoch =
    s.powerEpoch := rfl
@[simp] theorem State.accumulate_resetLine (s : State) (c : Int × Int) :
    (s.accumulate c).resetLine =
    s.resetLine := rfl
@[simp] theorem State.accumulate_inbox (s : State) (c : Int × Int) : (s.accumulate c).inbox = s.inbox := rfl
@[simp] theorem State.accumulate_readData (s : State) (c : Int × Int) :
    (s.accumulate c).readData =
    s.readData := rfl
@[simp] theorem State.accumulate_framePort (s : State) (c : Int × Int) :
    (s.accumulate c).framePort =
    s.framePort := rfl

/-! ## latch -/

@[simp] theorem State.latch_pos (s : State) : (s.latch).pos = s.pos := rfl
@[simp] theorem State.latch_ready (s : State) : (s.latch).ready = s.ready := rfl
@[simp] theorem State.latch_errAddr (s : State) : (s.latch).errAddr = s.errAddr := rfl
@[simp] theorem State.latch_errLock (s : State) : (s.latch).errLock = s.errLock := rfl
@[simp] theorem State.latch_errCmd (s : State) : (s.latch).errCmd = s.errCmd := rfl
@[simp] theorem State.latch_errCfg (s : State) : (s.latch).errCfg = s.errCfg := rfl
@[simp] theorem State.latch_errPan (s : State) : (s.latch).errPan = s.errPan := rfl
@[simp] theorem State.latch_errCause (s : State) : (s.latch).errCause = s.errCause := rfl
@[simp] theorem State.latch_errInfo (s : State) : (s.latch).errInfo = s.errInfo := rfl
@[simp] theorem State.latch_sampleRate (s : State) : (s.latch).sampleRate = s.sampleRate := rfl
@[simp] theorem State.latch_tickMs (s : State) : (s.latch).tickMs = s.tickMs := rfl
@[simp] theorem State.latch_repeatTick (s : State) : (s.latch).repeatTick = s.repeatTick := rfl
@[simp] theorem State.latch_endTick (s : State) : (s.latch).endTick = s.endTick := rfl
@[simp] theorem State.latch_recordCount (s : State) : (s.latch).recordCount = s.recordCount := rfl
@[simp] theorem State.latch_octave (s : State) : (s.latch).octave = s.octave := rfl
@[simp] theorem State.latch_length (s : State) : (s.latch).length = s.length := rfl
@[simp] theorem State.latch_volume (s : State) : (s.latch).volume = s.volume := rfl
@[simp] theorem State.latch_mem (s : State) : (s.latch).mem = s.mem := rfl
@[simp] theorem State.latch_tinc (s : State) : (s.latch).tinc = s.tinc := rfl
@[simp] theorem State.latch_spt (s : State) : (s.latch).spt = s.spt := rfl
@[simp] theorem State.latch_cd (s : State) : (s.latch).cd = s.cd := rfl
@[simp] theorem State.latch_voices (s : State) : (s.latch).voices = s.voices := rfl
@[simp] theorem State.latch_vmix (s : State) : (s.latch).vmix = s.vmix := rfl
@[simp] theorem State.latch_vmixLow (s : State) : (s.latch).vmixLow = s.vmixLow := rfl
@[simp] theorem State.latch_vl (s : State) : (s.latch).vl = s.vl := rfl
@[simp] theorem State.latch_vr (s : State) : (s.latch).vr = s.vr := rfl
@[simp] theorem State.latch_accL (s : State) : (s.latch).accL = s.accL := rfl
@[simp] theorem State.latch_accR (s : State) : (s.latch).accR = s.accR := rfl
@[simp] theorem State.latch_outL (s : State) : (s.latch).outL = s.accL := rfl
@[simp] theorem State.latch_outR (s : State) : (s.latch).outR = s.accR := rfl
@[simp] theorem State.latch_params (s : State) : (s.latch).params = s.params := rfl
@[simp] theorem State.latch_powerEpoch (s : State) : (s.latch).powerEpoch = s.powerEpoch := rfl
@[simp] theorem State.latch_resetLine (s : State) : (s.latch).resetLine = s.resetLine := rfl
@[simp] theorem State.latch_inbox (s : State) : (s.latch).inbox = s.inbox := rfl
@[simp] theorem State.latch_readData (s : State) : (s.latch).readData = s.readData := rfl
@[simp] theorem State.latch_framePort (s : State) : (s.latch).framePort = s.framePort := rfl

/-! ## clearPorts -/

@[simp] theorem State.clearPorts_pos (s : State) : (s.clearPorts).pos = s.pos := rfl
@[simp] theorem State.clearPorts_ready (s : State) : (s.clearPorts).ready = s.ready := rfl
@[simp] theorem State.clearPorts_errAddr (s : State) : (s.clearPorts).errAddr = s.errAddr := rfl
@[simp] theorem State.clearPorts_errLock (s : State) : (s.clearPorts).errLock = s.errLock := rfl
@[simp] theorem State.clearPorts_errCmd (s : State) : (s.clearPorts).errCmd = s.errCmd := rfl
@[simp] theorem State.clearPorts_errCfg (s : State) : (s.clearPorts).errCfg = s.errCfg := rfl
@[simp] theorem State.clearPorts_errPan (s : State) : (s.clearPorts).errPan = s.errPan := rfl
@[simp] theorem State.clearPorts_errCause (s : State) : (s.clearPorts).errCause = s.errCause := rfl
@[simp] theorem State.clearPorts_errInfo (s : State) : (s.clearPorts).errInfo = s.errInfo := rfl
@[simp] theorem State.clearPorts_sampleRate (s : State) : (s.clearPorts).sampleRate = s.sampleRate := rfl
@[simp] theorem State.clearPorts_tickMs (s : State) : (s.clearPorts).tickMs = s.tickMs := rfl
@[simp] theorem State.clearPorts_repeatTick (s : State) : (s.clearPorts).repeatTick = s.repeatTick := rfl
@[simp] theorem State.clearPorts_endTick (s : State) : (s.clearPorts).endTick = s.endTick := rfl
@[simp] theorem State.clearPorts_recordCount (s : State) : (s.clearPorts).recordCount = s.recordCount := rfl
@[simp] theorem State.clearPorts_octave (s : State) : (s.clearPorts).octave = s.octave := rfl
@[simp] theorem State.clearPorts_length (s : State) : (s.clearPorts).length = s.length := rfl
@[simp] theorem State.clearPorts_volume (s : State) : (s.clearPorts).volume = s.volume := rfl
@[simp] theorem State.clearPorts_mem (s : State) : (s.clearPorts).mem = s.mem := rfl
@[simp] theorem State.clearPorts_tinc (s : State) : (s.clearPorts).tinc = s.tinc := rfl
@[simp] theorem State.clearPorts_spt (s : State) : (s.clearPorts).spt = s.spt := rfl
@[simp] theorem State.clearPorts_cd (s : State) : (s.clearPorts).cd = s.cd := rfl
@[simp] theorem State.clearPorts_voices (s : State) : (s.clearPorts).voices = s.voices := rfl
@[simp] theorem State.clearPorts_vmix (s : State) : (s.clearPorts).vmix = s.vmix := rfl
@[simp] theorem State.clearPorts_vmixLow (s : State) : (s.clearPorts).vmixLow = s.vmixLow := rfl
@[simp] theorem State.clearPorts_vl (s : State) : (s.clearPorts).vl = s.vl := rfl
@[simp] theorem State.clearPorts_vr (s : State) : (s.clearPorts).vr = s.vr := rfl
@[simp] theorem State.clearPorts_accL (s : State) : (s.clearPorts).accL = s.accL := rfl
@[simp] theorem State.clearPorts_accR (s : State) : (s.clearPorts).accR = s.accR := rfl
@[simp] theorem State.clearPorts_outL (s : State) : (s.clearPorts).outL = s.outL := rfl
@[simp] theorem State.clearPorts_outR (s : State) : (s.clearPorts).outR = s.outR := rfl
@[simp] theorem State.clearPorts_params (s : State) : (s.clearPorts).params = s.params := rfl
@[simp] theorem State.clearPorts_powerEpoch (s : State) : (s.clearPorts).powerEpoch = s.powerEpoch := rfl
@[simp] theorem State.clearPorts_resetLine (s : State) : (s.clearPorts).resetLine = s.resetLine := rfl
@[simp] theorem State.clearPorts_inbox (s : State) : (s.clearPorts).inbox = s.inbox := rfl
@[simp] theorem State.clearPorts_readData (s : State) : (s.clearPorts).readData = none := rfl
@[simp] theorem State.clearPorts_framePort (s : State) : (s.clearPorts).framePort = [] := rfl

/-! ## advancePos -/

@[simp] theorem State.advancePos_pos (s : State) :
    (s.advancePos).pos =
    if s.endTick.toInt ≤ s.pos.toInt + 1 then s.repeatTick else BitVec.ofInt 32 (s.pos.toInt + 1) := rfl
@[simp] theorem State.advancePos_ready (s : State) : (s.advancePos).ready = s.ready := rfl
@[simp] theorem State.advancePos_errAddr (s : State) : (s.advancePos).errAddr = s.errAddr := rfl
@[simp] theorem State.advancePos_errLock (s : State) : (s.advancePos).errLock = s.errLock := rfl
@[simp] theorem State.advancePos_errCmd (s : State) : (s.advancePos).errCmd = s.errCmd := rfl
@[simp] theorem State.advancePos_errCfg (s : State) : (s.advancePos).errCfg = s.errCfg := rfl
@[simp] theorem State.advancePos_errPan (s : State) : (s.advancePos).errPan = s.errPan := rfl
@[simp] theorem State.advancePos_errCause (s : State) : (s.advancePos).errCause = s.errCause := rfl
@[simp] theorem State.advancePos_errInfo (s : State) : (s.advancePos).errInfo = s.errInfo := rfl
@[simp] theorem State.advancePos_sampleRate (s : State) : (s.advancePos).sampleRate = s.sampleRate := rfl
@[simp] theorem State.advancePos_tickMs (s : State) : (s.advancePos).tickMs = s.tickMs := rfl
@[simp] theorem State.advancePos_repeatTick (s : State) : (s.advancePos).repeatTick = s.repeatTick := rfl
@[simp] theorem State.advancePos_endTick (s : State) : (s.advancePos).endTick = s.endTick := rfl
@[simp] theorem State.advancePos_recordCount (s : State) : (s.advancePos).recordCount = s.recordCount := rfl
@[simp] theorem State.advancePos_octave (s : State) : (s.advancePos).octave = s.octave := rfl
@[simp] theorem State.advancePos_length (s : State) : (s.advancePos).length = s.length := rfl
@[simp] theorem State.advancePos_volume (s : State) : (s.advancePos).volume = s.volume := rfl
@[simp] theorem State.advancePos_mem (s : State) : (s.advancePos).mem = s.mem := rfl
@[simp] theorem State.advancePos_tinc (s : State) : (s.advancePos).tinc = s.tinc := rfl
@[simp] theorem State.advancePos_spt (s : State) : (s.advancePos).spt = s.spt := rfl
@[simp] theorem State.advancePos_cd (s : State) : (s.advancePos).cd = s.cd := rfl
@[simp] theorem State.advancePos_voices (s : State) : (s.advancePos).voices = s.voices := rfl
@[simp] theorem State.advancePos_vmix (s : State) : (s.advancePos).vmix = s.vmix := rfl
@[simp] theorem State.advancePos_vmixLow (s : State) : (s.advancePos).vmixLow = s.vmixLow := rfl
@[simp] theorem State.advancePos_vl (s : State) : (s.advancePos).vl = s.vl := rfl
@[simp] theorem State.advancePos_vr (s : State) : (s.advancePos).vr = s.vr := rfl
@[simp] theorem State.advancePos_accL (s : State) : (s.advancePos).accL = s.accL := rfl
@[simp] theorem State.advancePos_accR (s : State) : (s.advancePos).accR = s.accR := rfl
@[simp] theorem State.advancePos_outL (s : State) : (s.advancePos).outL = s.outL := rfl
@[simp] theorem State.advancePos_outR (s : State) : (s.advancePos).outR = s.outR := rfl
@[simp] theorem State.advancePos_params (s : State) : (s.advancePos).params = s.params := rfl
@[simp] theorem State.advancePos_powerEpoch (s : State) : (s.advancePos).powerEpoch = s.powerEpoch := rfl
@[simp] theorem State.advancePos_resetLine (s : State) : (s.advancePos).resetLine = s.resetLine := rfl
@[simp] theorem State.advancePos_inbox (s : State) : (s.advancePos).inbox = s.inbox := rfl
@[simp] theorem State.advancePos_readData (s : State) : (s.advancePos).readData = s.readData := rfl
@[simp] theorem State.advancePos_framePort (s : State) : (s.advancePos).framePort = s.framePort := rfl

/-! ## presentTxn -/

@[simp] theorem State.presentTxn_pos (s : State) (x : BusTxn) : (s.presentTxn x).pos = s.pos := rfl
@[simp] theorem State.presentTxn_ready (s : State) (x : BusTxn) : (s.presentTxn x).ready = s.ready := rfl
@[simp] theorem State.presentTxn_errAddr (s : State) (x : BusTxn) :
    (s.presentTxn x).errAddr =
    s.errAddr := rfl
@[simp] theorem State.presentTxn_errLock (s : State) (x : BusTxn) :
    (s.presentTxn x).errLock =
    s.errLock := rfl
@[simp] theorem State.presentTxn_errCmd (s : State) (x : BusTxn) : (s.presentTxn x).errCmd = s.errCmd := rfl
@[simp] theorem State.presentTxn_errCfg (s : State) (x : BusTxn) : (s.presentTxn x).errCfg = s.errCfg := rfl
@[simp] theorem State.presentTxn_errPan (s : State) (x : BusTxn) : (s.presentTxn x).errPan = s.errPan := rfl
@[simp] theorem State.presentTxn_errCause (s : State) (x : BusTxn) :
    (s.presentTxn x).errCause =
    s.errCause := rfl
@[simp] theorem State.presentTxn_errInfo (s : State) (x : BusTxn) :
    (s.presentTxn x).errInfo =
    s.errInfo := rfl
@[simp] theorem State.presentTxn_sampleRate (s : State) (x : BusTxn) :
    (s.presentTxn x).sampleRate =
    s.sampleRate := rfl
@[simp] theorem State.presentTxn_tickMs (s : State) (x : BusTxn) : (s.presentTxn x).tickMs = s.tickMs := rfl
@[simp] theorem State.presentTxn_repeatTick (s : State) (x : BusTxn) :
    (s.presentTxn x).repeatTick =
    s.repeatTick := rfl
@[simp] theorem State.presentTxn_endTick (s : State) (x : BusTxn) :
    (s.presentTxn x).endTick =
    s.endTick := rfl
@[simp] theorem State.presentTxn_recordCount (s : State) (x : BusTxn) :
    (s.presentTxn x).recordCount =
    s.recordCount := rfl
@[simp] theorem State.presentTxn_octave (s : State) (x : BusTxn) : (s.presentTxn x).octave = s.octave := rfl
@[simp] theorem State.presentTxn_length (s : State) (x : BusTxn) : (s.presentTxn x).length = s.length := rfl
@[simp] theorem State.presentTxn_volume (s : State) (x : BusTxn) : (s.presentTxn x).volume = s.volume := rfl
@[simp] theorem State.presentTxn_mem (s : State) (x : BusTxn) : (s.presentTxn x).mem = s.mem := rfl
@[simp] theorem State.presentTxn_tinc (s : State) (x : BusTxn) : (s.presentTxn x).tinc = s.tinc := rfl
@[simp] theorem State.presentTxn_spt (s : State) (x : BusTxn) : (s.presentTxn x).spt = s.spt := rfl
@[simp] theorem State.presentTxn_cd (s : State) (x : BusTxn) : (s.presentTxn x).cd = s.cd := rfl
@[simp] theorem State.presentTxn_voices (s : State) (x : BusTxn) : (s.presentTxn x).voices = s.voices := rfl
@[simp] theorem State.presentTxn_vmix (s : State) (x : BusTxn) : (s.presentTxn x).vmix = s.vmix := rfl
@[simp] theorem State.presentTxn_vmixLow (s : State) (x : BusTxn) :
    (s.presentTxn x).vmixLow =
    s.vmixLow := rfl
@[simp] theorem State.presentTxn_vl (s : State) (x : BusTxn) : (s.presentTxn x).vl = s.vl := rfl
@[simp] theorem State.presentTxn_vr (s : State) (x : BusTxn) : (s.presentTxn x).vr = s.vr := rfl
@[simp] theorem State.presentTxn_accL (s : State) (x : BusTxn) : (s.presentTxn x).accL = s.accL := rfl
@[simp] theorem State.presentTxn_accR (s : State) (x : BusTxn) : (s.presentTxn x).accR = s.accR := rfl
@[simp] theorem State.presentTxn_outL (s : State) (x : BusTxn) : (s.presentTxn x).outL = s.outL := rfl
@[simp] theorem State.presentTxn_outR (s : State) (x : BusTxn) : (s.presentTxn x).outR = s.outR := rfl
@[simp] theorem State.presentTxn_params (s : State) (x : BusTxn) : (s.presentTxn x).params = s.params := rfl
@[simp] theorem State.presentTxn_powerEpoch (s : State) (x : BusTxn) :
    (s.presentTxn x).powerEpoch =
    s.powerEpoch := rfl
@[simp] theorem State.presentTxn_resetLine (s : State) (x : BusTxn) :
    (s.presentTxn x).resetLine =
    false := rfl
@[simp] theorem State.presentTxn_inbox (s : State) (x : BusTxn) :
    (s.presentTxn x).inbox =
    .bus x :: s.inbox := rfl
@[simp] theorem State.presentTxn_readData (s : State) (x : BusTxn) :
    (s.presentTxn x).readData =
    s.readData := rfl
@[simp] theorem State.presentTxn_framePort (s : State) (x : BusTxn) :
    (s.presentTxn x).framePort =
    s.framePort := rfl

/-! ## armInit -/

@[simp] theorem State.armInit_pos (s : State) : (s.armInit).pos = 0 := rfl
@[simp] theorem State.armInit_ready (s : State) : (s.armInit).ready = true := rfl
@[simp] theorem State.armInit_errAddr (s : State) : (s.armInit).errAddr = s.errAddr := rfl
@[simp] theorem State.armInit_errLock (s : State) : (s.armInit).errLock = s.errLock := rfl
@[simp] theorem State.armInit_errCmd (s : State) : (s.armInit).errCmd = s.errCmd := rfl
@[simp] theorem State.armInit_errCfg (s : State) : (s.armInit).errCfg = s.errCfg := rfl
@[simp] theorem State.armInit_errPan (s : State) : (s.armInit).errPan = s.errPan := rfl
@[simp] theorem State.armInit_errCause (s : State) : (s.armInit).errCause = s.errCause := rfl
@[simp] theorem State.armInit_errInfo (s : State) : (s.armInit).errInfo = s.errInfo := rfl
@[simp] theorem State.armInit_sampleRate (s : State) : (s.armInit).sampleRate = s.sampleRate := rfl
@[simp] theorem State.armInit_tickMs (s : State) : (s.armInit).tickMs = s.tickMs := rfl
@[simp] theorem State.armInit_repeatTick (s : State) : (s.armInit).repeatTick = s.repeatTick := rfl
@[simp] theorem State.armInit_endTick (s : State) : (s.armInit).endTick = s.endTick := rfl
@[simp] theorem State.armInit_recordCount (s : State) : (s.armInit).recordCount = s.recordCount := rfl
@[simp] theorem State.armInit_octave (s : State) : (s.armInit).octave = s.octave := rfl
@[simp] theorem State.armInit_length (s : State) : (s.armInit).length = s.length := rfl
@[simp] theorem State.armInit_volume (s : State) : (s.armInit).volume = s.volume := rfl
@[simp] theorem State.armInit_mem (s : State) : (s.armInit).mem = s.mem := rfl
@[simp] theorem State.armInit_tinc (s : State) :
    (s.armInit).tinc =
    BitVec.ofNat 32 (tincOf s.params.refRate s.sampleRate) := rfl
@[simp] theorem State.armInit_spt (s : State) :
    (s.armInit).spt =
    BitVec.ofInt 64 (sptOf s.sampleRate s.tickMs) := rfl
@[simp] theorem State.armInit_cd (s : State) : (s.armInit).cd = 0 := rfl
@[simp] theorem State.armInit_voices (s : State) :
    (s.armInit).voices =
    Vector.replicate 4 (Vector.replicate 24 Voice.silent) := rfl
@[simp] theorem State.armInit_vmix (s : State) :
    (s.armInit).vmix =
    Vector.ofFn fun t => volumeGain s.volume[t] := rfl
@[simp] theorem State.armInit_vmixLow (s : State) :
    (s.armInit).vmixLow =
    volumeGainLow s.volume[percussion] := rfl
@[simp] theorem State.armInit_vl (s : State) : (s.armInit).vl = Vector.replicate 4 32768 := rfl
@[simp] theorem State.armInit_vr (s : State) : (s.armInit).vr = Vector.replicate 4 32768 := rfl
@[simp] theorem State.armInit_accL (s : State) : (s.armInit).accL = s.accL := rfl
@[simp] theorem State.armInit_accR (s : State) : (s.armInit).accR = s.accR := rfl
@[simp] theorem State.armInit_outL (s : State) : (s.armInit).outL = s.outL := rfl
@[simp] theorem State.armInit_outR (s : State) : (s.armInit).outR = s.outR := rfl
@[simp] theorem State.armInit_params (s : State) : (s.armInit).params = s.params := rfl
@[simp] theorem State.armInit_powerEpoch (s : State) : (s.armInit).powerEpoch = s.powerEpoch := rfl
@[simp] theorem State.armInit_resetLine (s : State) : (s.armInit).resetLine = s.resetLine := rfl
@[simp] theorem State.armInit_inbox (s : State) : (s.armInit).inbox = s.inbox := rfl
@[simp] theorem State.armInit_readData (s : State) : (s.armInit).readData = s.readData := rfl
@[simp] theorem State.armInit_framePort (s : State) : (s.armInit).framePort = s.framePort := rfl

/-! ## raiseError -/

/-- All that raising an error does, as one record update (R241). -/
theorem State.raiseError_eq (s : State) (c : ErrorCause) (i : Word) :
    s.raiseError c i =
      { s with
        errAddr := s.errAddr || decide (c = .addr), errLock := s.errLock || decide (c = .lock),
        errCmd := s.errCmd || decide (c = .cmd), errCfg := s.errCfg || decide (c = .cfg),
        errPan := s.errPan || decide (c = .pan),
        errCause := if s.errCause = 0 then c.code else s.errCause
        errInfo := if s.errCause = 0 then i else s.errInfo } := by
  by_cases h : s.errCause = 0#8 <;> cases c <;> simp [State.raiseError, State.setErrorFlag, h]

@[simp] theorem State.raiseError_pos (s : State) (c : ErrorCause) (i : Word) :
    (s.raiseError c i).pos = s.pos := by rw [State.raiseError_eq]
@[simp] theorem State.raiseError_ready (s : State) (c : ErrorCause) (i : Word) :
    (s.raiseError c i).ready = s.ready := by rw [State.raiseError_eq]
@[simp] theorem State.raiseError_errAddr (s : State) (c : ErrorCause) (i : Word) :
    (s.raiseError c i).errAddr = (s.errAddr || decide (c = .addr)) := by rw [State.raiseError_eq]
@[simp] theorem State.raiseError_errLock (s : State) (c : ErrorCause) (i : Word) :
    (s.raiseError c i).errLock = (s.errLock || decide (c = .lock)) := by rw [State.raiseError_eq]
@[simp] theorem State.raiseError_errCmd (s : State) (c : ErrorCause) (i : Word) :
    (s.raiseError c i).errCmd = (s.errCmd || decide (c = .cmd)) := by rw [State.raiseError_eq]
@[simp] theorem State.raiseError_errCfg (s : State) (c : ErrorCause) (i : Word) :
    (s.raiseError c i).errCfg = (s.errCfg || decide (c = .cfg)) := by rw [State.raiseError_eq]
@[simp] theorem State.raiseError_errPan (s : State) (c : ErrorCause) (i : Word) :
    (s.raiseError c i).errPan = (s.errPan || decide (c = .pan)) := by rw [State.raiseError_eq]
@[simp] theorem State.raiseError_errCause (s : State) (c : ErrorCause) (i : Word) :
    (s.raiseError c i).errCause = if s.errCause = 0 then c.code else s.errCause := by rw [State.raiseError_eq]
@[simp] theorem State.raiseError_errInfo (s : State) (c : ErrorCause) (i : Word) :
    (s.raiseError c i).errInfo = if s.errCause = 0 then i else s.errInfo := by rw [State.raiseError_eq]
@[simp] theorem State.raiseError_sampleRate (s : State) (c : ErrorCause) (i : Word) :
    (s.raiseError c i).sampleRate = s.sampleRate := by rw [State.raiseError_eq]
@[simp] theorem State.raiseError_tickMs (s : State) (c : ErrorCause) (i : Word) :
    (s.raiseError c i).tickMs = s.tickMs := by rw [State.raiseError_eq]
@[simp] theorem State.raiseError_repeatTick (s : State) (c : ErrorCause) (i : Word) :
    (s.raiseError c i).repeatTick = s.repeatTick := by rw [State.raiseError_eq]
@[simp] theorem State.raiseError_endTick (s : State) (c : ErrorCause) (i : Word) :
    (s.raiseError c i).endTick = s.endTick := by rw [State.raiseError_eq]
@[simp] theorem State.raiseError_recordCount (s : State) (c : ErrorCause) (i : Word) :
    (s.raiseError c i).recordCount = s.recordCount := by rw [State.raiseError_eq]
@[simp] theorem State.raiseError_octave (s : State) (c : ErrorCause) (i : Word) :
    (s.raiseError c i).octave = s.octave := by rw [State.raiseError_eq]
@[simp] theorem State.raiseError_length (s : State) (c : ErrorCause) (i : Word) :
    (s.raiseError c i).length = s.length := by rw [State.raiseError_eq]
@[simp] theorem State.raiseError_volume (s : State) (c : ErrorCause) (i : Word) :
    (s.raiseError c i).volume = s.volume := by rw [State.raiseError_eq]
@[simp] theorem State.raiseError_mem (s : State) (c : ErrorCause) (i : Word) :
    (s.raiseError c i).mem = s.mem := by rw [State.raiseError_eq]
@[simp] theorem State.raiseError_tinc (s : State) (c : ErrorCause) (i : Word) :
    (s.raiseError c i).tinc = s.tinc := by rw [State.raiseError_eq]
@[simp] theorem State.raiseError_spt (s : State) (c : ErrorCause) (i : Word) :
    (s.raiseError c i).spt = s.spt := by rw [State.raiseError_eq]
@[simp] theorem State.raiseError_cd (s : State) (c : ErrorCause) (i : Word) :
    (s.raiseError c i).cd = s.cd := by rw [State.raiseError_eq]
@[simp] theorem State.raiseError_voices (s : State) (c : ErrorCause) (i : Word) :
    (s.raiseError c i).voices = s.voices := by rw [State.raiseError_eq]
@[simp] theorem State.raiseError_vmix (s : State) (c : ErrorCause) (i : Word) :
    (s.raiseError c i).vmix = s.vmix := by rw [State.raiseError_eq]
@[simp] theorem State.raiseError_vmixLow (s : State) (c : ErrorCause) (i : Word) :
    (s.raiseError c i).vmixLow = s.vmixLow := by rw [State.raiseError_eq]
@[simp] theorem State.raiseError_vl (s : State) (c : ErrorCause) (i : Word) :
    (s.raiseError c i).vl = s.vl := by rw [State.raiseError_eq]
@[simp] theorem State.raiseError_vr (s : State) (c : ErrorCause) (i : Word) :
    (s.raiseError c i).vr = s.vr := by rw [State.raiseError_eq]
@[simp] theorem State.raiseError_accL (s : State) (c : ErrorCause) (i : Word) :
    (s.raiseError c i).accL = s.accL := by rw [State.raiseError_eq]
@[simp] theorem State.raiseError_accR (s : State) (c : ErrorCause) (i : Word) :
    (s.raiseError c i).accR = s.accR := by rw [State.raiseError_eq]
@[simp] theorem State.raiseError_outL (s : State) (c : ErrorCause) (i : Word) :
    (s.raiseError c i).outL = s.outL := by rw [State.raiseError_eq]
@[simp] theorem State.raiseError_outR (s : State) (c : ErrorCause) (i : Word) :
    (s.raiseError c i).outR = s.outR := by rw [State.raiseError_eq]
@[simp] theorem State.raiseError_params (s : State) (c : ErrorCause) (i : Word) :
    (s.raiseError c i).params = s.params := by rw [State.raiseError_eq]
@[simp] theorem State.raiseError_powerEpoch (s : State) (c : ErrorCause) (i : Word) :
    (s.raiseError c i).powerEpoch = s.powerEpoch := by rw [State.raiseError_eq]
@[simp] theorem State.raiseError_resetLine (s : State) (c : ErrorCause) (i : Word) :
    (s.raiseError c i).resetLine = s.resetLine := by rw [State.raiseError_eq]
@[simp] theorem State.raiseError_inbox (s : State) (c : ErrorCause) (i : Word) :
    (s.raiseError c i).inbox = s.inbox := by rw [State.raiseError_eq]
@[simp] theorem State.raiseError_readData (s : State) (c : ErrorCause) (i : Word) :
    (s.raiseError c i).readData = s.readData := by rw [State.raiseError_eq]
@[simp] theorem State.raiseError_framePort (s : State) (c : ErrorCause) (i : Word) :
    (s.raiseError c i).framePort = s.framePort := by rw [State.raiseError_eq]

/-! ## recomputeGains -/

/-- All that recomputing a track's gains does, as one record update (R159, R160). -/
theorem State.recomputeGains_eq (s : State) (t : Track) :
    s.recomputeGains t =
      { s with
        vmix := s.vmix.set t.val (volumeGain s.volume[t])
        vmixLow := if t = percussion then volumeGainLow s.volume[t] else s.vmixLow } := by
  by_cases h : t = percussion <;> simp [State.recomputeGains, h]

@[simp] theorem State.recomputeGains_pos (s : State) (t : Track) :
    (s.recomputeGains t).pos = s.pos := by rw [State.recomputeGains_eq]
@[simp] theorem State.recomputeGains_ready (s : State) (t : Track) :
    (s.recomputeGains t).ready = s.ready := by rw [State.recomputeGains_eq]
@[simp] theorem State.recomputeGains_errAddr (s : State) (t : Track) :
    (s.recomputeGains t).errAddr = s.errAddr := by rw [State.recomputeGains_eq]
@[simp] theorem State.recomputeGains_errLock (s : State) (t : Track) :
    (s.recomputeGains t).errLock = s.errLock := by rw [State.recomputeGains_eq]
@[simp] theorem State.recomputeGains_errCmd (s : State) (t : Track) :
    (s.recomputeGains t).errCmd = s.errCmd := by rw [State.recomputeGains_eq]
@[simp] theorem State.recomputeGains_errCfg (s : State) (t : Track) :
    (s.recomputeGains t).errCfg = s.errCfg := by rw [State.recomputeGains_eq]
@[simp] theorem State.recomputeGains_errPan (s : State) (t : Track) :
    (s.recomputeGains t).errPan = s.errPan := by rw [State.recomputeGains_eq]
@[simp] theorem State.recomputeGains_errCause (s : State) (t : Track) :
    (s.recomputeGains t).errCause = s.errCause := by rw [State.recomputeGains_eq]
@[simp] theorem State.recomputeGains_errInfo (s : State) (t : Track) :
    (s.recomputeGains t).errInfo = s.errInfo := by rw [State.recomputeGains_eq]
@[simp] theorem State.recomputeGains_sampleRate (s : State) (t : Track) :
    (s.recomputeGains t).sampleRate = s.sampleRate := by rw [State.recomputeGains_eq]
@[simp] theorem State.recomputeGains_tickMs (s : State) (t : Track) :
    (s.recomputeGains t).tickMs = s.tickMs := by rw [State.recomputeGains_eq]
@[simp] theorem State.recomputeGains_repeatTick (s : State) (t : Track) :
    (s.recomputeGains t).repeatTick = s.repeatTick := by rw [State.recomputeGains_eq]
@[simp] theorem State.recomputeGains_endTick (s : State) (t : Track) :
    (s.recomputeGains t).endTick = s.endTick := by rw [State.recomputeGains_eq]
@[simp] theorem State.recomputeGains_recordCount (s : State) (t : Track) :
    (s.recomputeGains t).recordCount = s.recordCount := by rw [State.recomputeGains_eq]
@[simp] theorem State.recomputeGains_octave (s : State) (t : Track) :
    (s.recomputeGains t).octave = s.octave := by rw [State.recomputeGains_eq]
@[simp] theorem State.recomputeGains_length (s : State) (t : Track) :
    (s.recomputeGains t).length = s.length := by rw [State.recomputeGains_eq]
@[simp] theorem State.recomputeGains_volume (s : State) (t : Track) :
    (s.recomputeGains t).volume = s.volume := by rw [State.recomputeGains_eq]
@[simp] theorem State.recomputeGains_mem (s : State) (t : Track) :
    (s.recomputeGains t).mem = s.mem := by rw [State.recomputeGains_eq]
@[simp] theorem State.recomputeGains_tinc (s : State) (t : Track) :
    (s.recomputeGains t).tinc = s.tinc := by rw [State.recomputeGains_eq]
@[simp] theorem State.recomputeGains_spt (s : State) (t : Track) :
    (s.recomputeGains t).spt = s.spt := by rw [State.recomputeGains_eq]
@[simp] theorem State.recomputeGains_cd (s : State) (t : Track) :
    (s.recomputeGains t).cd = s.cd := by rw [State.recomputeGains_eq]
@[simp] theorem State.recomputeGains_voices (s : State) (t : Track) :
    (s.recomputeGains t).voices = s.voices := by rw [State.recomputeGains_eq]
@[simp] theorem State.recomputeGains_vmix (s : State) (t : Track) :
    (s.recomputeGains t).vmix = s.vmix.set t.val (volumeGain s.volume[t]) := by rw [State.recomputeGains_eq]
@[simp] theorem State.recomputeGains_vmixLow (s : State) (t : Track) :
    (s.recomputeGains t).vmixLow = if t = percussion then volumeGainLow s.volume[t] else s.vmixLow := by rw [State.recomputeGains_eq]
@[simp] theorem State.recomputeGains_vl (s : State) (t : Track) :
    (s.recomputeGains t).vl = s.vl := by rw [State.recomputeGains_eq]
@[simp] theorem State.recomputeGains_vr (s : State) (t : Track) :
    (s.recomputeGains t).vr = s.vr := by rw [State.recomputeGains_eq]
@[simp] theorem State.recomputeGains_accL (s : State) (t : Track) :
    (s.recomputeGains t).accL = s.accL := by rw [State.recomputeGains_eq]
@[simp] theorem State.recomputeGains_accR (s : State) (t : Track) :
    (s.recomputeGains t).accR = s.accR := by rw [State.recomputeGains_eq]
@[simp] theorem State.recomputeGains_outL (s : State) (t : Track) :
    (s.recomputeGains t).outL = s.outL := by rw [State.recomputeGains_eq]
@[simp] theorem State.recomputeGains_outR (s : State) (t : Track) :
    (s.recomputeGains t).outR = s.outR := by rw [State.recomputeGains_eq]
@[simp] theorem State.recomputeGains_params (s : State) (t : Track) :
    (s.recomputeGains t).params = s.params := by rw [State.recomputeGains_eq]
@[simp] theorem State.recomputeGains_powerEpoch (s : State) (t : Track) :
    (s.recomputeGains t).powerEpoch = s.powerEpoch := by rw [State.recomputeGains_eq]
@[simp] theorem State.recomputeGains_resetLine (s : State) (t : Track) :
    (s.recomputeGains t).resetLine = s.resetLine := by rw [State.recomputeGains_eq]
@[simp] theorem State.recomputeGains_inbox (s : State) (t : Track) :
    (s.recomputeGains t).inbox = s.inbox := by rw [State.recomputeGains_eq]
@[simp] theorem State.recomputeGains_readData (s : State) (t : Track) :
    (s.recomputeGains t).readData = s.readData := by rw [State.recomputeGains_eq]
@[simp] theorem State.recomputeGains_framePort (s : State) (t : Track) :
    (s.recomputeGains t).framePort = s.framePort := by rw [State.recomputeGains_eq]

end Sys2Proof.Machine
end

