-- ==== Sys2Proof/Laws/Ops.lean ====
section
/-! SUPPORT. What each shared operation can do, said once: memory, voice slots, arithmetic. -/

namespace Sys2Proof.Machine

/-! ## Arithmetic -/

theorem clamp_bounds (x : Int) {lo hi : Int} (h : lo ≤ hi) : lo ≤ clamp x lo hi ∧ clamp x lo hi ≤ hi := by
  unfold clamp; split <;> [skip; split] <;> omega

theorem clamp_of_mem {x lo hi : Int} (h₁ : lo ≤ x) (h₂ : x ≤ hi) : clamp x lo hi = x := by
  unfold clamp; rw [if_neg (by omega), if_neg (by omega)]

/-- Clamping is the maximum with the lower bound of the minimum with the upper one. -/
theorem clamp_eq (x : Int) {lo hi : Int} (h : lo ≤ hi) : clamp x lo hi = max lo (min hi x) := by
  unfold clamp; split <;> [skip; split] <;> omega

/-- The bounds of R223. -/
theorem sat16_eq (x : Int) : sat16 x = max (-32768) (min 32767 x) := clamp_eq x (by decide)

theorem sat16_bounds (x : Int) : -32768 ≤ sat16 x ∧ sat16 x ≤ 32767 := clamp_bounds x (by decide)

theorem toInt_ofInt_of_bounds {w : Nat} {x : Int} (hw : 0 < w) (h₁ : -(2 ^ (w - 1) : Int) ≤ x)
    (h₂ : x < (2 ^ (w - 1) : Int)) : (BitVec.ofInt w x).toInt = x := by
  rw [BitVec.toInt_ofInt]
  have h : (2 ^ w : Int) = 2 * 2 ^ (w - 1) := by
    obtain ⟨v, rfl⟩ : ∃ v, w = v + 1 := ⟨w - 1, by omega⟩
    simp [pow_succ]; ring
  apply Int.bmod_eq_of_le_mul_two <;> push_cast <;> omega

theorem addSat_toInt (acc : BitVec 16) (c : Int) : (addSat acc c).toInt = sat16 (acc.toInt + c) := by
  have h := sat16_bounds (acc.toInt + c)
  exact toInt_ofInt_of_bounds (by decide) (by norm_num; omega) (by norm_num; omega)

/-! ## Memory -/

@[simp] theorem Memory.lookup_nil (a : Nat) : Memory.lookup [] a = none := rfl

theorem Memory.lookup_write (m : List Host.Cell) (a x : Nat) (b : Byte) :
    Memory.lookup (Memory.write m a b) x = if x = a then some b else Memory.lookup m x := by
  induction m with
  | nil => simp [Memory.write, Memory.lookup, eq_comm]
  | cons c m ih =>
    obtain ⟨k, v⟩ := c
    simp only [Memory.write]
    split
    · simp [Memory.lookup, eq_comm]
    · split
      · subst a; by_cases h : k = x <;> simp [Memory.lookup, h, eq_comm]
        intro h'; exact absurd h'.symm h
      · rename_i h₁ h₂
        simp only [Memory.lookup, ih]
        by_cases h : k = x
        · subst h; simp [show ¬ k = a by omega]
        · simp [h]

theorem Memory.mem_write {m : List Host.Cell} {a : Nat} {b : Byte} {c : Host.Cell}
    (h : c ∈ Memory.write m a b) : c = (a, b) ∨ c ∈ m := by
  induction m with
  | nil => simpa [Memory.write] using h
  | cons d m ih =>
    obtain ⟨k, v⟩ := d
    simp only [Memory.write] at h
    split at h
    · simpa using h
    · split at h
      · simp only [List.mem_cons] at h ⊢; tauto
      · simp only [List.mem_cons] at h ⊢
        rcases h with h | h
        · tauto
        · rcases ih h with h | h <;> tauto

/-- The canonical form says that the listed addresses are strictly rising. -/
theorem Memory.wf_iff (m : List Host.Cell) :
    Memory.wf m = true ↔ m.Pairwise (fun c d => c.1 < d.1) := by
  rw [← List.isChain_iff_pairwise (R := fun c d : Host.Cell => c.1 < d.1)]
  induction m with
  | nil => simp [Memory.wf]
  | cons c m ih =>
    cases m with
    | nil => simp [Memory.wf]
    | cons d m => obtain ⟨k, v⟩ := c; obtain ⟨k', v'⟩ := d; simp [Memory.wf, ih]

/-- Writing a byte keeps the canonical form. -/
theorem Memory.wf_write {m : List Host.Cell} (h : Memory.wf m = true) (a : Nat) (b : Byte) :
    Memory.wf (Memory.write m a b) = true := by
  rw [Memory.wf_iff] at h ⊢
  induction m with
  | nil => simp [Memory.write]
  | cons c m ih =>
    obtain ⟨k, v⟩ := c
    rw [List.pairwise_cons] at h
    simp only [Memory.write]
    split
    · rename_i hk
      refine List.pairwise_cons.2 ⟨?_, List.pairwise_cons.2 h⟩
      intro d hd
      rcases List.mem_cons.1 hd with rfl | hd
      · exact hk
      · exact lt_trans hk (h.1 d hd)
    · split
      · rename_i hk; subst hk; exact List.pairwise_cons.2 h
      · refine List.pairwise_cons.2 ⟨?_, ih h.2⟩
        intro d hd
        rcases Memory.mem_write hd with rfl | hd
        · show k < a; omega
        · exact h.1 d hd

/-- Writing a word keeps the canonical form. -/
theorem Memory.wf_writeWord {m : List Host.Cell} (h : Memory.wf m = true) (a : Nat) (d : Word) :
    Memory.wf (Memory.writeWord m a d) = true :=
  Memory.wf_write (Memory.wf_write (Memory.wf_write (Memory.wf_write h _ _) _ _) _ _) _ _

theorem Memory.mem_writeWord {m : List Host.Cell} {a : Nat} {d : Word} {c : Host.Cell}
    (h : c ∈ Memory.writeWord m a d) : (a ≤ c.1 ∧ c.1 < a + 4) ∨ c ∈ m := by
  unfold Memory.writeWord at h
  rcases Memory.mem_write h with rfl | h
  · left; simp
  rcases Memory.mem_write h with rfl | h
  · left; simp
  rcases Memory.mem_write h with rfl | h
  · left; simp
  rcases Memory.mem_write h with rfl | h
  · left; simp
  exact .inr h

/-- All that storing a word does to the bytes of RAM. -/
theorem State.ramByte_writeRamWord (s : State) (a x : Nat) (d : Word) :
    (s.writeRamWord a d).ramByte x =
      if a ≤ x ∧ x < a + 4 then d.extractLsb' (8 * (x - a)) 8 else s.ramByte x := by
  simp only [State.ramByte, State.writeRamWord_mem, State.writeRamWord_powerEpoch, Memory.writeWord,
    Memory.lookup_write]
  split
  · subst x; simp
  · split
    · subst x; simp
    · split
      · subst x; simp
      · split
        · subst x; simp
        · rw [if_neg (by omega)]

theorem State.ramWord_extract (s : State) (a k : Nat) (h : k < 4) :
    (s.ramWord a).extractLsb' (8 * k) 8 = s.ramByte (a + k) := by
  unfold State.ramWord
  interval_cases k <;>
    · apply BitVec.eq_of_getLsbD_eq
      intro i hi
      simp only [BitVec.getLsbD_extractLsb', BitVec.getLsbD_append, hi]
      interval_cases i <;> simp

/-- A word reads back as its four bytes. -/
theorem word_of_bytes (d : Word) :
    d.extractLsb' 24 8 ++ d.extractLsb' 16 8 ++ d.extractLsb' 8 8 ++ d.extractLsb' 0 8 = d := by
  apply BitVec.eq_of_getLsbD_eq
  intro i hi
  simp only [BitVec.getLsbD_append, BitVec.getLsbD_extractLsb']
  interval_cases i <;> simp

/-- A read after a write to the same word gives the word written. -/
theorem State.ramWord_writeRamWord_same (s : State) (a : Nat) (d : Word) :
    (s.writeRamWord a d).ramWord a = d := by
  unfold State.ramWord
  simp only [State.ramByte_writeRamWord]
  simp
  exact word_of_bytes d

/-- A write leaves every other word alone. -/
theorem State.ramWord_writeRamWord_other (s : State) (a x : Nat) (d : Word) (h : x + 4 ≤ a ∨ a + 4 ≤ x) :
    (s.writeRamWord a d).ramWord x = s.ramWord x := by
  unfold State.ramWord
  simp only [State.ramByte_writeRamWord]
  rw [if_neg (by omega), if_neg (by omega), if_neg (by omega), if_neg (by omega)]

/-! ## The drum bank -/

/-- The drum sample of a slot, where its map entry names one (R157). -/
theorem State.drumLen_of_getElem? {s : State} {n : Slot} {drum : List Byte}
    (h : s.params.drums[s.params.drumMap[n]]? = some drum) : s.drumLen n = drum.length := by
  unfold State.drumLen State.drumSample
  rw [List.getD_eq_getElem?_getD, h, Option.getD_some]

/-! ## Voice slots -/

/-- All that replacing a slot does to the slots. -/
theorem State.voice_setVoice (s : State) (t t' : Track) (n n' : Slot) (v : Voice) :
    (s.setVoice t n v).voice t' n' = if t' = t ∧ n' = n then v else s.voice t' n' := by
  simp only [State.voice, State.setVoice_voices, Fin.getElem_fin, Vector.getElem_set]
  by_cases ht : t' = t
  · subst ht
    by_cases hn : n' = n
    · subst hn; simp
    · have hn' : ¬ n.val = n'.val := fun h => hn (Fin.ext h.symm)
      simp [hn, hn']
  · have ht' : ¬ t.val = t'.val := fun h => ht (Fin.ext h.symm)
    simp [ht, ht']

/-- Two sets of voices that agree slot by slot are equal. -/
theorem voices_ext {s s' : State} (h : ∀ t n, s.voice t n = s'.voice t n) : s.voices = s'.voices := by
  apply Vector.ext
  intro i hi
  apply Vector.ext
  intro j hj
  exact h ⟨i, hi⟩ ⟨j, hj⟩

@[simp] theorem melodicOf_track (m : Melodic) : melodicOf m.track = some m := by
  simp [melodicOf, Melodic.track]

@[simp] theorem melodicOf_percussion : melodicOf percussion = none := rfl

theorem melodicOf_cases (t : Track) :
    (∃ m : Melodic, t = m.track ∧ melodicOf t = some m) ∨ (t = percussion ∧ melodicOf t = none) := by
  by_cases h : t.val < 3
  · exact .inl ⟨⟨t.val, h⟩, by simp [Melodic.track], by simp [melodicOf, h]⟩
  · exact .inr ⟨by simp [percussion, Fin.ext_iff]; omega, by simp [melodicOf, h]⟩

end Sys2Proof.Machine
end

