-- ==== Sys2Proof/Laws/Gain.lean ====
section
/-! SUPPORT. What the gain curve gives: the search finds the greatest value that fits, within [0, 32768]. -/

namespace Sys2Proof.Machine

theorem gainFits_iff (k g : Nat) :
    gainFits k g = true ↔ (2 * g - 1) ^ gainDivisor * 10 ^ k ≤ 65536 ^ gainDivisor := by
  simp only [gainFits, decide_eq_true_eq]

theorem gainDivisor_pos : 0 < gainDivisor := by decide

/-- What fits stays fitting below. -/
theorem gainFits_of_le {k g g' : Nat} (hg : g' ≤ g) (h : gainFits k g = true) : gainFits k g' = true := by
  rw [gainFits_iff] at h ⊢
  exact le_trans (Nat.mul_le_mul_right _ (Nat.pow_le_pow_left (by omega) _)) h

theorem gainFits_zero (k : Nat) : gainFits k 0 = true := by
  rw [gainFits_iff]
  simp [gainDivisor_pos.ne']

/-- Nothing above unity fits. -/
theorem gainFits_le {k g : Nat} (h : gainFits k g = true) : g ≤ 32768 := by
  rw [gainFits_iff] at h
  have h4 : (2 * g - 1) ^ gainDivisor ≤ (2 * g - 1) ^ gainDivisor * 10 ^ k :=
    Nat.le_mul_of_pos_right _ (Nat.pow_pos (by norm_num))
  have := (Nat.pow_le_pow_iff_left gainDivisor_pos.ne').1 (h4.trans h)
  omega

/-- The search from g finds the greatest fitting value of [g, g + 2^b). -/
theorem gainSearch_spec (k b g : Nat) (h : gainFits k g = true) (hb : gainFits k (g + 2 ^ b) = false) :
    gainFits k (gainSearch k b g) = true ∧ gainFits k (gainSearch k b g + 1) = false := by
  induction b generalizing g with
  | zero => rw [gainSearch]; exact ⟨h, by simpa using hb⟩
  | succ b ih =>
    rw [gainSearch]
    by_cases hm : gainFits k (g + 2 ^ b) = true
    · rw [if_pos hm]
      exact ih _ hm (by rw [← hb]; congr 1; rw [pow_succ]; omega)
    · rw [if_neg hm]
      exact ih _ h (by simpa using hm)

/-- The gain of m is the greatest value that fits. -/
theorem gain_spec (m : Int) :
    gainFits (-m).toNat (gain m) = true ∧ gainFits (-m).toNat (gain m + 1) = false := by
  refine gainSearch_spec _ _ _ (gainFits_zero _) ?_
  by_contra h
  have h' := gainFits_le (by simpa using h : gainFits (-m).toNat (0 + 2 ^ 16) = true)
  norm_num at h'

/-- A gain is a UQ1.15 value of [0, 32768]. -/
theorem gain_le (m : Int) : gain m ≤ 32768 := gainFits_le (gain_spec m).1

theorem gain_eq_of_fits {m : Int} {g : Nat} (h : gainFits (-m).toNat g = true)
    (h' : gainFits (-m).toNat (g + 1) = false) : gain m = g := by
  obtain ⟨h₁, h₂⟩ := gain_spec m
  rcases lt_trichotomy (gain m) g with hlt | heq | hgt
  · rw [gainFits_of_le hlt h] at h₂; exact absurd h₂ (by decide)
  · exact heq
  · rw [gainFits_of_le hgt h₁] at h'; exact absurd h' (by decide)

/-- Unity gain at 0. -/
@[simp] theorem gain_zero : gain 0 = 32768 := by decide +kernel

theorem gainReg_toNat (m : Int) : (gainReg m).toNat = gain (clamp m (-10000) 0) := by
  have h := gain_le (clamp m (-10000) 0)
  simp only [gainReg, BitVec.toNat_ofNat]
  exact Nat.mod_eq_of_lt (by omega)

theorem gainReg_toNat_le (m : Int) : (gainReg m).toNat ≤ 32768 := by
  rw [gainReg_toNat]; exact gain_le _

/-- No attenuation from 0 up. -/
theorem gainReg_of_nonneg {m : Int} (h : 0 ≤ m) : gainReg m = 32768 := by
  apply BitVec.eq_of_toNat_eq
  rw [gainReg_toNat]
  have : clamp m (-10000) 0 = 0 := by unfold clamp; split <;> [omega; split] <;> omega
  rw [this, gain_zero]; rfl

theorem volumeGain_toNat_le (v : Word) : (volumeGain v).toNat ≤ 32768 := gainReg_toNat_le _

theorem volumeGainLow_toNat_le (v : Word) : (volumeGainLow v).toNat ≤ 32768 := gainReg_toNat_le _

/-- The curve argument of a volume, written out (R158). -/
theorem mb_eq (v : Int) : mb v = max (-10000) (min 0 ((v - 300) * 8)) := clamp_eq _ (by decide)

theorem mb_bounds (v : Int) : -10000 ≤ mb v ∧ mb v ≤ 0 := clamp_bounds _ (by decide)

/-- The loudness multiplier is the gain of the volume's curve argument (R159). -/
theorem volumeGain_toNat (v : Word) : (volumeGain v).toNat = gain (mb v.toInt) := by
  rw [volumeGain, gainReg_toNat, clamp_of_mem (mb_bounds _).1 (mb_bounds _).2]

/-- The low multiplier is the gain of 7/10 of the volume (R160). -/
theorem volumeGainLow_toNat (v : Word) : (volumeGainLow v).toNat = gain (mb ((7 * v.toInt).tdiv 10)) := by
  rw [volumeGainLow, gainReg_toNat, clamp_of_mem (mb_bounds _).1 (mb_bounds _).2]

/-- A gain grows with its argument (R14). -/
theorem gain_mono {m m' : Int} (h : m ≤ m') : gain m ≤ gain m' := by
  by_contra hc
  have h₁ := gainFits_of_le (show gain m' + 1 ≤ gain m by omega) (gain_spec m).1
  have h₂ : gainFits (-m').toNat (gain m' + 1) = true := by
    rw [gainFits_iff] at h₁ ⊢
    exact le_trans (Nat.mul_le_mul_left _ (Nat.pow_le_pow_right (by norm_num) (by omega))) h₁
  rw [(gain_spec m').2] at h₂
  exact absurd h₂ (by decide)

/-- A pan entry attenuates at most one channel (R161). -/
theorem pan_attenuates_one (q : Int) : gainReg (-q) = 32768 ∨ gainReg q = 32768 := by
  rcases le_total 0 q with h | h
  · exact .inr (gainReg_of_nonneg h)
  · exact .inl (gainReg_of_nonneg (by omega))

/-! ## What ARM computes (R151, R152) -/

/-- The tick length is at least 1 and fits 64 bits. -/
theorem sptOf_bounds (rate tickMs : Word) : 1 ≤ sptOf rate tickMs ∧ sptOf rate tickMs < 2 ^ 63 := by
  refine ⟨le_max_left _ _, ?_⟩
  have hr := rate.isLt
  have ht : tickMs.toInt < 2147483648 := by have := BitVec.toInt_lt (x := tickMs); omega
  have hp : (rate.toNat : Int) * tickMs.toInt < 9223372036854775808 := by nlinarith
  refine max_lt (by norm_num) ?_
  rcases le_total 0 ((rate.toNat : Int) * tickMs.toInt) with h | h
  · rw [Int.tdiv_eq_ediv_of_nonneg h]; omega
  · have h' : (-((rate.toNat : Int) * tickMs.toInt)).tdiv 1000 = -((rate.toNat : Int) * tickMs.toInt).tdiv 1000 :=
      Int.neg_tdiv _ _
    have := Int.tdiv_nonneg (a := -((rate.toNat : Int) * tickMs.toInt)) (b := 1000) (by omega) (by norm_num)
    omega

theorem sptOf_toNat (rate tickMs : Word) :
    ((BitVec.ofInt 64 (sptOf rate tickMs)).toNat : Int) = sptOf rate tickMs := by
  have h := sptOf_bounds rate tickMs
  rw [BitVec.toNat_ofInt]
  rw [Int.toNat_of_nonneg (Int.emod_nonneg _ (by norm_num))]
  exact Int.emod_eq_of_lt (by omega) (by norm_num; omega)

end Sys2Proof.Machine
end

