-- ==== Sys2Proof/Laws/Operands.lean ====
section
/-! SUPPORT. What an address selects, said once: which addresses are locked, read only, CMD, or reserved
(spec/20_memory.md R65 to R73). -/

namespace Sys2Proof.Machine

/-! ## The rows of the address map, as ranges -/

theorem LockAddr.aligned {depth a : Nat} (h : LockAddr depth a) : a % 4 = 0 := by
  rcases h with h | ⟨m, h⟩ | ⟨t, h⟩ | h
  · simp only [List.mem_cons, List.not_mem_nil, or_false] at h; omega
  · omega
  · omega
  · exact h.1

theorem ReadOnlyAddr.aligned {a : Nat} (h : ReadOnlyAddr a) : a % 4 = 0 := by
  rcases h with h | ⟨t, h⟩ | h | ⟨t, n, off, ho, h⟩
  · simp only [List.mem_cons, List.not_mem_nil, or_false] at h; omega
  · omega
  · omega
  · simp only [List.mem_cons, List.not_mem_nil, or_false] at ho; omega

theorem MappedAddr.aligned {depth a : Nat} (h : MappedAddr depth a) : a % 4 = 0 := by
  rcases h with h | h | h
  · omega
  · exact h.aligned
  · exact h.aligned

/-- A locked address above the registers is in a RAM. -/
theorem LockAddr.range {depth a : Nat} (hd : depth ≤ 262144) (h : LockAddr depth a) :
    a < 0x180 ∨ (0x1000 ≤ a ∧ a < 0x1300) ∨ (0x2000 ≤ a ∧ a < 0x20C0) ∨
      (0x100000 ≤ a ∧ a < 0x500000 ∧ (a - 0x100000) % 0x100000 / 4 < depth) := by
  rcases h with h | ⟨m, h⟩ | ⟨t, h⟩ | ⟨-, h | h | ⟨t, h⟩⟩
  · simp only [List.mem_cons, List.not_mem_nil, or_false] at h; omega
  · have := m.isLt; omega
  · have := t.isLt; omega
  · omega
  · omega
  · have := t.isLt
    unfold noteAddr at h
    have e : (a - 0x100000) % 0x100000 = a - 0x100000 - 0x100000 * t.val := by omega
    omega

/-- A read-only address above the registers is a word of the voice window. -/
theorem ReadOnlyAddr.range {a : Nat} (h : ReadOnlyAddr a) :
    a < 0x180 ∨ (0x10000 ≤ a ∧ a < 0x11000 ∧ (a - 0x10000) % 0x400 / 0x20 < 24 ∧
      (a % 0x20 = 0 ∨ a % 0x20 = 4 ∨ a % 0x20 = 8 ∨ a % 0x20 = 12 ∨ a % 0x20 = 16)) := by
  rcases h with h | ⟨t, h⟩ | h | ⟨t, n, off, ho, h⟩
  · simp only [List.mem_cons, List.not_mem_nil, or_false] at h; omega
  · have := t.isLt; omega
  · omega
  · simp only [List.mem_cons, List.not_mem_nil, or_false] at ho
    have := t.isLt; have := n.isLt
    omega

theorem LockAddr.of_wave {depth a : Nat} (ha : a % 4 = 0) (h : 0x1000 ≤ a ∧ a < 0x1300) : LockAddr depth a :=
  .inr (.inr (.inr ⟨ha, .inl h⟩))

theorem LockAddr.of_env {depth a : Nat} (ha : a % 4 = 0) (h : 0x2000 ≤ a ∧ a < 0x20C0) : LockAddr depth a :=
  .inr (.inr (.inr ⟨ha, .inr (.inl h)⟩))

theorem LockAddr.of_note {depth a : Nat} (ha : a % 4 = 0)
    (h : 0x100000 ≤ a ∧ a < 0x500000 ∧ (a - 0x100000) % 0x100000 / 4 < depth) : LockAddr depth a := by
  refine .inr (.inr (.inr ⟨ha, .inr (.inr ⟨⟨(a - 0x100000) / 0x100000, by omega⟩, ?_⟩)⟩))
  simp only [noteAddr]
  omega

theorem ReadOnlyAddr.of_voice {a : Nat} (h : 0x10000 ≤ a ∧ a < 0x11000) (hn : (a - 0x10000) % 0x400 / 0x20 < 24)
    (ho : a % 0x20 = 0 ∨ a % 0x20 = 4 ∨ a % 0x20 = 8 ∨ a % 0x20 = 12 ∨ a % 0x20 = 16) : ReadOnlyAddr a := by
  refine .inr (.inr (.inr ⟨⟨(a - 0x10000) / 0x400, by omega⟩, ⟨(a - 0x10000) % 0x400 / 0x20, hn⟩, a % 0x20, ?_, ?_⟩))
  · simp only [List.mem_cons, List.not_mem_nil, or_false]; omega
  · simp only; omega

/-! ## What the address map gives -/

/-- The registers, by computation. -/
theorem addressMap_registers : ∀ a : Fin 0x180, a.val % 4 = 0 →
    ((addressMap 0 a.val).access = .locked ↔
      (a.val ∈ [0x0C, 0x10, 0x14, 0x18, 0x1C] ∨
        (∃ m : Melodic, a.val = 0x100 + 0x20 * m.val ∨ a.val = 0x104 + 0x20 * m.val) ∨
        (∃ t : Track, a.val = 0x108 + 0x20 * t.val))) ∧
    ((addressMap 0 a.val).access = .readOnly ↔
      (a.val ∈ [0x00, 0x08, 0x20, 0x24, 0x28, 0x2C, 0x30, 0x34, 0x38, 0x3C, 0x40, 0x44] ∨
        (∃ t : Track, a.val = 0x10C + 0x20 * t.val ∨ a.val = 0x114 + 0x20 * t.val ∨ a.val = 0x118 + 0x20 * t.val) ∨
        a.val = 0x170)) ∧
    ((addressMap 0 a.val).access = .command ↔ a.val = 4) := by
  decide +kernel

theorem addressMap_low (depth a : Nat) (h : a < 0x180) : addressMap depth a = addressMap 0 a := by
  unfold addressMap
  simp [h]

/-- Where the words of the voice window are. -/
theorem voiceTarget_access (t : Track) (off : Nat) :
    (voiceTarget t off).access =
      if off / 0x20 < 24 ∧
        (off % 0x20 = 0 ∨ off % 0x20 = 4 ∨ off % 0x20 = 8 ∨ off % 0x20 = 12 ∨ off % 0x20 = 16) then .readOnly
      else .absent := by
  unfold voiceTarget
  split
  · rename_i h
    generalize off % 0x20 = k
    split <;> simp_all [Target.access]
  · rename_i h
    simp [h, Target.access]

/-- The access of every word-aligned address. -/
theorem addressMap_access (depth a : Nat) (hd : depth ≤ 262144) (ha : a % 4 = 0) :
    ((addressMap depth a).access = .locked ↔ LockAddr depth a) ∧
    ((addressMap depth a).access = .readOnly ↔ ReadOnlyAddr a) ∧
    ((addressMap depth a).access = .command ↔ a = 4) := by
  by_cases h0 : a < 0x180
  · rw [addressMap_low depth a h0]
    obtain ⟨h₁, h₂, h₃⟩ := addressMap_registers ⟨a, h0⟩ ha
    refine ⟨h₁.trans ⟨?_, ?_⟩, h₂.trans ⟨?_, ?_⟩, h₃⟩
    · rintro (h | h | h)
      · exact .inl h
      · exact .inr (.inl h)
      · exact .inr (.inr (.inl h))
    · rintro (h | h | h | ⟨-, h | h | ⟨t, h⟩⟩)
      · exact .inl h
      · exact .inr (.inl h)
      · exact .inr (.inr h)
      · omega
      · omega
      · unfold noteAddr at h; omega
    · rintro (h | h | h)
      · exact .inl h
      · exact .inr (.inl h)
      · exact .inr (.inr (.inl h))
    · rintro (h | h | h | ⟨t, n, off, ho, h⟩)
      · exact .inl h
      · exact .inr (.inl h)
      · exact .inr (.inr h)
      · omega
  · have hmap : ¬ a < 0x100 := by omega
    have h4 : ¬ a = 4 := by omega
    unfold addressMap
    rw [if_neg hmap, if_neg h0]
    split
    · rename_i h
      refine ⟨⟨fun _ => LockAddr.of_wave ha h, fun _ => rfl⟩, ⟨nofun, fun hr => ?_⟩, ⟨nofun, fun hr => absurd hr h4⟩⟩
      have := hr.range; omega
    · split
      · rename_i h
        refine ⟨⟨fun _ => LockAddr.of_env ha h, fun _ => rfl⟩, ⟨nofun, fun hr => ?_⟩, ⟨nofun, fun hr => absurd hr h4⟩⟩
        have := hr.range; omega
      · split
        · rename_i hw he h
          rw [voiceTarget_access]
          have e : (a - 0x10000) % 0x400 % 0x20 = a % 0x20 := by omega
          rw [e]
          split
          · rename_i hv
            refine ⟨⟨nofun, fun hl => ?_⟩, ⟨fun _ => ReadOnlyAddr.of_voice h hv.1 hv.2, fun _ => rfl⟩,
              ⟨nofun, fun hr => absurd hr h4⟩⟩
            have := hl.range hd; omega
          · rename_i hv
            refine ⟨⟨nofun, fun hl => ?_⟩, ⟨nofun, fun hr => ?_⟩, ⟨nofun, fun hr => absurd hr h4⟩⟩
            · have := hl.range hd; omega
            · have := hr.range; omega
        · split
          · rename_i hw he hv h
            split
            · rename_i hn
              refine ⟨⟨fun _ => LockAddr.of_note ha ⟨h.1, h.2, hn⟩, fun _ => rfl⟩, ⟨nofun, fun hr => ?_⟩,
                ⟨nofun, fun hr => absurd hr h4⟩⟩
              have := hr.range; omega
            · rename_i hn
              refine ⟨⟨nofun, fun hl => ?_⟩, ⟨nofun, fun hr => ?_⟩, ⟨nofun, fun hr => absurd hr h4⟩⟩
              · have := hl.range hd; omega
              · have := hr.range; omega
          · rename_i hw he hv h
            refine ⟨⟨nofun, fun hl => ?_⟩, ⟨nofun, fun hr => ?_⟩, ⟨nofun, fun hr => absurd hr h4⟩⟩
            · have := hl.range hd; omega
            · have := hr.range; omega

/-- How a bus address takes accesses (R65 to R73). -/
theorem State.target_access (s : State) (a : Addr) (hd : s.params.noteDepth ≤ 262144) :
    ((s.target a).access = .locked ↔ LockAddr s.params.noteDepth a.toNat) ∧
    ((s.target a).access = .readOnly ↔ ReadOnlyAddr a.toNat) ∧
    ((s.target a).access = .command ↔ a.toNat = 4) ∧
    ((s.target a).access = .absent ↔ ¬ MappedAddr s.params.noteDepth a.toNat) := by
  suffices h : ((s.target a).access = .locked ↔ LockAddr s.params.noteDepth a.toNat) ∧
      ((s.target a).access = .readOnly ↔ ReadOnlyAddr a.toNat) ∧
      ((s.target a).access = .command ↔ a.toNat = 4) by
    obtain ⟨h₁, h₂, h₃⟩ := h
    refine ⟨h₁, h₂, h₃, ?_⟩
    unfold MappedAddr
    rw [← h₁, ← h₂, ← h₃]
    cases (s.target a).access <;> simp
  unfold State.target
  split
  · rename_i ha
    exact addressMap_access _ _ hd ha
  · rename_i ha
    refine ⟨⟨nofun, fun h => absurd h.aligned ha⟩, ⟨nofun, fun h => absurd h.aligned ha⟩,
      ⟨nofun, fun h => ?_⟩⟩
    omega

/-- A store changes no byte of RAM outside the word its address names (R70, R71, R125). -/
theorem State.ramByte_storeTarget {s : State} {a : Addr} {x : Nat} (h : x < a.toNat ∨ a.toNat + 4 ≤ x) (d : Word) :
    (s.storeTarget (s.target a) d).ramByte x = s.ramByte x := by
  have word : ∀ b, b = a.toNat → (s.writeRamWord b d).ramByte x = s.ramByte x := by
    rintro b rfl
    rw [State.ramByte_writeRamWord, if_neg (by omega)]
  unfold State.target addressMap
  split_ifs with ha
  · unfold controlTarget; split <;> rfl
  · unfold trackTarget; split <;> (try split) <;> rfl
  · exact word _ (by simp only [waveAddr, Fin.ofNat]; omega)
  · exact word _ (by simp only [envAddr, Fin.ofNat]; omega)
  · unfold voiceTarget; split <;> (try split) <;> rfl
  · exact word _ (by simp only [noteAddr, Fin.ofNat]; omega)
  · rfl
  · rfl
  · rfl

/-! ## The targets by name -/

/-- A byte address that fits 24 bits. -/
theorem addr_toNat {n : Nat} (h : n < 16777216) : (BitVec.ofNat 24 n).toNat = n := by
  simp only [BitVec.toNat_ofNat]; exact Nat.mod_eq_of_lt h

theorem State.target_control (s : State) (off : Nat) (h : off < 0x100) (h4 : off % 4 = 0) :
    s.target (BitVec.ofNat 24 off) = controlTarget off := by
  unfold State.target
  rw [addr_toNat (by omega), if_pos h4]
  unfold addressMap
  rw [if_pos h]

theorem State.target_track (s : State) (t : Track) (off : Nat) (h : off < 0x20) (h4 : off % 4 = 0) :
    s.target (BitVec.ofNat 24 (0x100 + 0x20 * t.val + off)) = trackTarget t off := by
  have ht := t.isLt
  unfold State.target
  rw [addr_toNat (by omega), if_pos (by omega)]
  unfold addressMap
  rw [if_neg (by omega), if_pos (by omega)]
  have e : Fin.ofNat 4 ((0x100 + 0x20 * t.val + off - 0x100) / 0x20) = t := by
    apply Fin.ext; simp only [Fin.ofNat]; omega
  have e' : (0x100 + 0x20 * t.val + off - 0x100) % 0x20 = off := by omega
  rw [e, e']

theorem State.target_wave (s : State) (m : Melodic) (j : Nat) (h : j < 64) :
    s.target (BitVec.ofNat 24 (0x1000 + 0x100 * m.val + 4 * j)) = .wave m j := by
  have hm := m.isLt
  unfold State.target
  rw [addr_toNat (by omega), if_pos (by omega)]
  unfold addressMap
  rw [if_neg (by omega), if_neg (by omega), if_pos (by omega)]
  congr 1
  · apply Fin.ext; simp only [Fin.ofNat]; omega
  · omega

theorem State.target_env (s : State) (m : Melodic) (j : Nat) (h : j < 16) :
    s.target (BitVec.ofNat 24 (0x2000 + 0x40 * m.val + 4 * j)) = .env m j := by
  have hm := m.isLt
  unfold State.target
  rw [addr_toNat (by omega), if_pos (by omega)]
  unfold addressMap
  rw [if_neg (by omega), if_neg (by omega), if_neg (by omega), if_pos (by omega)]
  congr 1
  · apply Fin.ext; simp only [Fin.ofNat]; omega
  · omega

theorem State.target_voice (s : State) (t : Track) (n : Slot) (off : Nat) (h : off < 0x20) (h4 : off % 4 = 0) :
    s.target (BitVec.ofNat 24 (0x10000 + 0x400 * t.val + 0x20 * n.val + off)) =
      voiceTarget t (0x20 * n.val + off) := by
  have ht := t.isLt
  have hn := n.isLt
  unfold State.target
  rw [addr_toNat (by omega), if_pos (by omega)]
  unfold addressMap
  rw [if_neg (by omega), if_neg (by omega), if_neg (by omega), if_neg (by omega), if_pos (by omega)]
  have e : Fin.ofNat 4 ((0x10000 + 0x400 * t.val + 0x20 * n.val + off - 0x10000) / 0x400) = t := by
    apply Fin.ext; simp only [Fin.ofNat]; omega
  have e' : (0x10000 + 0x400 * t.val + 0x20 * n.val + off - 0x10000) % 0x400 = 0x20 * n.val + off := by omega
  rw [e, e']

theorem State.target_note (s : State) (t : Track) (j : Nat) (hd : s.params.noteDepth ≤ 262144)
    (h : j < s.params.noteDepth) :
    s.target (BitVec.ofNat 24 (0x100000 + 0x100000 * t.val + 4 * j)) = .note t j := by
  have ht := t.isLt
  unfold State.target
  rw [addr_toNat (by omega), if_pos (by omega)]
  unfold addressMap
  rw [if_neg (by omega), if_neg (by omega), if_neg (by omega), if_neg (by omega), if_neg (by omega),
    if_pos (by omega), if_pos (by omega)]
  congr 1
  · apply Fin.ext; simp only [Fin.ofNat]; omega
  · omega

end Sys2Proof.Machine
end

