-- ==== Sys2Proof/Laws/PerInstr.lean ====
section
/-! SUPPORT. What holds of every instruction as syntax, one lemma an instruction: its words stand where its kind is
carried (spec/30_encoding.md R90), and take as many bytes as that kind has (R91, R92, R95). -/

namespace Sys2Proof.Laws.Encoded

/-- The place that carries an instruction: event words in the NOTE RAM of their track, everything else on the bus. -/
def place : Instr → Place
  | .rd _ => .busRead
  | .wr _ _ => .busWrite
  | .nop => .busWrite
  | .arm => .busWrite
  | .disarm => .busWrite
  | .frame => .busWrite
  | .clrerr => .busWrite
  | .cmdRsvd _ => .busWrite
  | .ev t _ => .note t
  | .evPan t _ _ => .note t
  | .evRsvd t _ _ => .note t

/-- The bytes of a place: an address has 3, a data word 4. -/
def size : Place → Nat
  | .busRead => 3
  | .busWrite => 7
  | .command => 4
  | .note _ => 4

/-- The code of i stands at the place of its kind, and its bytes are as many as that place has. -/
def Statement (i : Instr) : Prop := (encode i).place = place i ∧ (encode i).bytes.length = size (place i)

theorem rd (a : Addr) : Statement (.rd a) := ⟨rfl, length_bytesOfNum 3 _⟩

theorem write (a : Addr) (d : Word) :
    (Code.bus (.write a d)).place = .busWrite ∧ (Code.bus (.write a d)).bytes.length = 7 :=
  ⟨rfl, by simp [Code.bytes]⟩

theorem event (t : Track) (w : Word) : (Code.event t w).place = .note t ∧ (Code.event t w).bytes.length = 4 :=
  ⟨rfl, by simp [Code.bytes]⟩

theorem wr (a : Addr) (d : Word) : Statement (.wr a d) := write a d

theorem nop : Statement .nop := write _ _

theorem arm : Statement .arm := write _ _

theorem disarm : Statement .disarm := write _ _

theorem frame : Statement .frame := write _ _

theorem clrerr : Statement .clrerr := write _ _

theorem cmdRsvd (w : Word) : Statement (.cmdRsvd w) := write _ _

theorem ev (t : Track) (trig : BitVec 24) : Statement (.ev t trig) := event t _

theorem evPan (t : Track) (trig : BitVec 24) (p : BitVec 8) : Statement (.evPan t trig p) := event t _

theorem evRsvd (t : Track) (trig : BitVec 24) (p : BitVec 8) : Statement (.evRsvd t trig p) := event t _

end Sys2Proof.Laws.Encoded
end

