-- ==== Sys2Proof/Laws/Sequencer.lean ====
section
/-! SUPPORT. What triggers, event words and the tick can do, said once. -/

namespace Sys2Proof.Machine

@[simp] theorem mem_slots (n : Slot) : n ∈ slots := List.mem_finRange n

@[simp] theorem mem_tracks (t : Track) : t ∈ tracks := List.mem_finRange t

/-! ## Triggers -/

/-- What a trigger writes depends on the lengths and the parameters only. -/
theorem State.triggerVoice_congr {s s' : State} (hl : s'.length = s.length) (hp : s'.params = s.params)
    (t : Track) (n : Slot) : s'.triggerVoice t n = s.triggerVoice t n := by
  unfold State.triggerVoice State.drumLen State.drumSample
  rw [hl, hp]

theorem foldl_trigger (t : Track) (p : Slot → Bool) (l : List Slot) (s : State) :
    ∃ vs, l.foldl (fun s n => if p n then s.trigger t n else s) s = { s with voices := vs } ∧
      ∀ t' n', ({ s with voices := vs } : State).voice t' n' =
        if t' = t ∧ n' ∈ l ∧ p n' = true then s.triggerVoice t n' else s.voice t' n' := by
  induction l generalizing s with
  | nil => exact ⟨s.voices, rfl, by simp [State.voice]⟩
  | cons n l ih =>
    by_cases hp : p n = true
    · obtain ⟨vs, h₁, h₂⟩ := ih (s.trigger t n)
      refine ⟨vs, ?_, ?_⟩
      · simp only [List.foldl_cons, hp, if_true]
        rw [h₁]; rfl
      · intro t' n'
        have h := h₂ t' n'
        rw [show ({ s.trigger t n with voices := vs } : State) = { s with voices := vs } from rfl] at h
        rw [h, State.triggerVoice_congr (s := s) (s' := s.trigger t n) rfl rfl, State.trigger,
          State.voice_setVoice]
        by_cases ht : t' = t
        · by_cases hn : n' = n
          · subst hn; simp [ht, hp]
          · simp [ht, hn]
        · simp [ht]
    · obtain ⟨vs, h₁, h₂⟩ := ih s
      refine ⟨vs, ?_, ?_⟩
      · simp only [List.foldl_cons, hp]; exact h₁
      · intro t' n'
        rw [h₂]
        by_cases hn : n' = n
        · subst hn; simp [hp]
        · simp [hn]

/-- All that an event word's triggers do: the slots whose bit is set restart, every other slot and field stays. -/
theorem State.applyTriggers_spec (s : State) (t : Track) (trig : BitVec 24) :
    ∃ vs, s.applyTriggers t trig = { s with voices := vs } ∧
      ∀ t' n', ({ s with voices := vs } : State).voice t' n' =
        if t' = t ∧ trig.getLsbD n'.val = true then s.triggerVoice t n' else s.voice t' n' := by
  obtain ⟨vs, h₁, h₂⟩ := foldl_trigger t (fun n => trig.getLsbD n.val) slots s
  exact ⟨vs, h₁, by simpa using h₂⟩

/-- The slots after an event word's triggers. -/
theorem State.applyTriggers_voice (s : State) (t t' : Track) (trig : BitVec 24) (n' : Slot) :
    (s.applyTriggers t trig).voice t' n' =
      if t' = t ∧ trig.getLsbD n'.val = true then s.triggerVoice t n' else s.voice t' n' := by
  obtain ⟨vs, h₁, h₂⟩ := s.applyTriggers_spec t trig
  rw [h₁, h₂]

/-- Triggers change the voice slots only. -/
theorem State.applyTriggers_frame (s : State) (t : Track) (trig : BitVec 24) :
    s.applyTriggers t trig = { s with voices := (s.applyTriggers t trig).voices } := by
  obtain ⟨vs, h₁, -⟩ := s.applyTriggers_spec t trig
  rw [h₁]

/-! ## Event words -/

/-- The part every event word has changes the slots of its track and the loudness multipliers only. -/
theorem State.eventCommon_frame (s : State) (t : Track) (trig : BitVec 24) :
    s.eventCommon t trig =
      { s with
        voices := (s.applyTriggers t trig).voices
        vmix := s.vmix.set t.val (volumeGain s.volume[t])
        vmixLow := if t = percussion then volumeGainLow s.volume[t] else s.vmixLow } := by
  rw [State.eventCommon, State.recomputeGains_eq, State.applyTriggers_frame]

/-- The three forms of an event word (R97 to R99). -/
theorem State.runEvent_cases (s : State) (t : Track) (w : Word) :
    (eventPan w = 0 ∧ s.runEvent t w = s.eventCommon t (eventTrig w)) ∨
    (1 ≤ (eventPan w).toNat ∧ (eventPan w).toNat ≤ 7 ∧
      s.runEvent t w = (s.eventCommon t (eventTrig w)).setPan t (s.panEntry (eventPan w))) ∨
    (8 ≤ (eventPan w).toNat ∧
      s.runEvent t w =
        (s.eventCommon t (eventTrig w)).raiseError .pan
          (BitVec.ofNat 32 (t.val * 256 + (eventPan w).toNat))) := by
  unfold State.runEvent
  split
  · rename_i h; exact .inl ⟨h, rfl⟩
  · rename_i h
    have h0 : 1 ≤ (eventPan w).toNat := by
      by_contra hc
      exact h (BitVec.eq_of_toNat_eq (by simp; omega))
    split
    · rename_i h7
      refine .inr (.inl ⟨h0, h7, ?_⟩)
      rw [State.runEvPan, State.eventCommon_frame]; rfl
    · rename_i h7; exact .inr (.inr ⟨by omega, rfl⟩)

/-- What an event word leaves unchanged. -/
structure EventFrame (s s' : State) : Prop where
  pos : s'.pos = s.pos
  ready : s'.ready = s.ready
  sampleRate : s'.sampleRate = s.sampleRate
  tickMs : s'.tickMs = s.tickMs
  repeatTick : s'.repeatTick = s.repeatTick
  endTick : s'.endTick = s.endTick
  recordCount : s'.recordCount = s.recordCount
  octave : s'.octave = s.octave
  length : s'.length = s.length
  volume : s'.volume = s.volume
  mem : s'.mem = s.mem
  tinc : s'.tinc = s.tinc
  spt : s'.spt = s.spt
  cd : s'.cd = s.cd
  accL : s'.accL = s.accL
  accR : s'.accR = s.accR
  outL : s'.outL = s.outL
  outR : s'.outR = s.outR
  params : s'.params = s.params
  powerEpoch : s'.powerEpoch = s.powerEpoch
  resetLine : s'.resetLine = s.resetLine
  inbox : s'.inbox = s.inbox
  readData : s'.readData = s.readData
  framePort : s'.framePort = s.framePort
  errAddr : s'.errAddr = s.errAddr
  errLock : s'.errLock = s.errLock
  errCmd : s'.errCmd = s.errCmd
  errCfg : s'.errCfg = s.errCfg

theorem EventFrame.refl (s : State) : EventFrame s s := by constructor <;> rfl

theorem EventFrame.trans {s s' s'' : State} (h : EventFrame s s') (h' : EventFrame s' s'') : EventFrame s s'' := by
  obtain ⟨⟩ := h
  obtain ⟨⟩ := h'
  constructor <;> simp_all only

/-- An event word changes the slots, the gains, the pan and the error record of cause 5 only. -/
theorem State.runEvent_frame (s : State) (t : Track) (w : Word) : EventFrame s (s.runEvent t w) := by
  rcases s.runEvent_cases t w with ⟨-, h⟩ | ⟨-, -, h⟩ | ⟨-, h⟩ <;> rw [h, State.eventCommon_frame]
  · constructor <;> rfl
  · constructor <;> rfl
  · constructor <;> simp

/-- The slots after an event word. -/
theorem State.runEvent_voice (s : State) (t t' : Track) (w : Word) (n' : Slot) :
    (s.runEvent t w).voice t' n' =
      if t' = t ∧ (eventTrig w).getLsbD n'.val = true then s.triggerVoice t n' else s.voice t' n' := by
  rw [← State.applyTriggers_voice]
  rcases s.runEvent_cases t w with ⟨-, h⟩ | ⟨-, -, h⟩ | ⟨-, h⟩ <;>
    · rw [h, State.eventCommon_frame]
      simp [State.voice]

/-! ## The tick -/

/-- The event words that a tick reads depend on fields no event word writes. -/
theorem State.eventAt_congr {s s' : State} (h : EventFrame s s') (t : Track) : s'.eventAt t = s.eventAt t := by
  unfold State.eventAt State.noteRead State.ramWord State.ramByte
  rw [h.pos, h.recordCount, h.mem, h.powerEpoch]

/-- Running the event words of a list of tracks. -/
theorem foldl_runEvent_frame (l : List Track) (s : State) :
    EventFrame s (l.foldl (fun s t => s.runEvent t (s.eventAt t)) s) := by
  induction l generalizing s with
  | nil => exact EventFrame.refl s
  | cons t l ih => exact (s.runEvent_frame t _).trans (ih _)

/-- An invariant that every event word keeps is kept by a tick up to the timeline's advance. -/
theorem foldl_runEvent_induction (P : State → Prop) (l : List Track)
    (h : ∀ s t w, P s → P (s.runEvent t w)) (s : State) (hs : P s) :
    P (l.foldl (fun s t => s.runEvent t (s.eventAt t)) s) := by
  induction l generalizing s with
  | nil => exact hs
  | cons t l ih => exact ih _ (h _ _ _ hs)

/-- The state a tick leaves before the timeline advances: every track's event word executed, in track order. -/
def State.playEvents (s : State) : State := tracks.foldl (fun s t => s.runEvent t (s.eventAt t)) s

/-- What the event words of a tick leave unchanged. -/
theorem State.playEvents_frame (s : State) : EventFrame s s.playEvents := foldl_runEvent_frame tracks s

/-- What every event word keeps, the event words of a tick keep. -/
theorem State.playEvents_induction (P : State → Prop) (h : ∀ s t w, P s → P (s.runEvent t w)) (s : State)
    (hs : P s) : P s.playEvents := foldl_runEvent_induction P tracks h s hs

/-- All that a tick check does (R150): with the countdown at 0 the event words, the timeline's advance and the reload;
else it counts down. -/
theorem State.tickCheck_cases (s : State) :
    (s.cd = 0 ∧ s.tickCheck = { s.playEvents with pos := s.advancePos.pos, cd := s.spt - 1 }) ∨
    (s.cd ≠ 0 ∧ s.tickCheck = { s with cd := s.cd - 1 }) := by
  have f := s.playEvents_frame
  by_cases h : s.cd = 0
  · refine .inl ⟨h, ?_⟩
    have e : s.advancePos.pos = s.playEvents.advancePos.pos := by
      unfold State.advancePos; rw [f.pos, f.endTick, f.repeatTick]
    rw [e, ← f.spt]
    unfold State.tickCheck
    rw [if_pos h]; rfl
  · refine .inr ⟨h, ?_⟩
    unfold State.tickCheck
    rw [if_neg h]

/-- The tick check is the tick, if one is due, and the countdown (R150). -/
theorem State.tickCheck_eq (s : State) :
    s.tickCheck = if s.cd = 0 then { s.tick with cd := s.tick.spt - 1 } else { s with cd := s.cd - 1 } := by
  unfold State.tickCheck
  split <;> rfl

end Sys2Proof.Machine
end

