-- ==== Sys2Proof/Laws/Render.lean ====
section
/-! SUPPORT. What the voice engines and the mixer can do, said once. -/

namespace Sys2Proof.Machine

/-! ## The voice timer -/

/-- A timer that runs down stays within its width. -/
theorem timerStep_toInt (tinc : Word) (v : Voice) (h : 0 < v.timer.toInt) :
    (timerStep tinc v).1.timer.toInt = v.timer.toInt - tinc.toNat := by
  have h₁ := BitVec.toInt_lt (x := v.timer)
  have h₂ := tinc.isLt
  unfold timerStep
  rw [if_neg (by omega)]
  exact toInt_ofInt_of_bounds (by decide) (by norm_num; omega) (by norm_num; omega)

/-- All that a timer step does (R180): a slot that is not live stays as it is; a live one loses `TINC`, and is LIVE
in this frame if it has lifetime left. -/
theorem timerStep_cases (tinc : Word) (v : Voice) :
    (v.timer.toInt ≤ 0 ∧ timerStep tinc v = (v, false)) ∨
    (0 < v.timer.toInt ∧ (timerStep tinc v).1.phase = v.phase ∧ (timerStep tinc v).1.fphase = v.fphase ∧
      (timerStep tinc v).1.timer.toInt = v.timer.toInt - tinc.toNat ∧
      (timerStep tinc v).2 = decide (0 < v.timer.toInt - tinc.toNat)) := by
  rcases le_or_gt v.timer.toInt 0 with h | h
  · exact .inl ⟨h, by rw [timerStep, if_pos h]⟩
  · refine .inr ⟨h, ?_, ?_, timerStep_toInt tinc v h, ?_⟩ <;> · unfold timerStep; rw [if_neg (by omega)]

/-! ## One slot of a frame -/

@[simp] theorem State.melodicVoice_timer (s : State) (m : Melodic) (n : Slot) (v : Voice) :
    (s.melodicVoice m n v).1.timer = v.timer := rfl

@[simp] theorem State.melodicVoice_fphase (s : State) (m : Melodic) (n : Slot) (v : Voice) :
    (s.melodicVoice m n v).1.fphase = v.fphase := rfl

@[simp] theorem State.percussionVoice_timer (s : State) (n : Slot) (v : Voice) :
    (s.percussionVoice n v).1.timer = v.timer := rfl

@[simp] theorem State.percussionVoice_phase (s : State) (n : Slot) (v : Voice) :
    (s.percussionVoice n v).1.phase = v.phase := rfl

@[simp] theorem State.percussionVoice_fphase (s : State) (n : Slot) (v : Voice) :
    (s.percussionVoice n v).1.fphase = BitVec.ofNat 48 (v.fphase.toNat + s.tinc.toNat) := rfl

/-- A slot that the timer skips keeps what the timer left, and contributes nothing (R180). -/
theorem State.slotStep_skip {s : State} {t : Track} {n : Slot} (h : (timerStep s.tinc (s.voice t n)).2 = false) :
    s.slotStep t n = ((timerStep s.tinc (s.voice t n)).1, none) := by
  unfold State.slotStep
  simp [h]

/-- A LIVE melodic slot (R181). -/
theorem State.slotStep_melodic {s : State} {m : Melodic} {n : Slot}
    (h : (timerStep s.tinc (s.voice m.track n)).2 = true) :
    s.slotStep m.track n =
      ((s.melodicVoice m n (timerStep s.tinc (s.voice m.track n)).1).1,
        some (s.melodicVoice m n (timerStep s.tinc (s.voice m.track n)).1).2) := by
  unfold State.slotStep
  simp only [h, if_true, melodicOf_track]

/-- A LIVE percussion slot (R200). -/
theorem State.slotStep_percussion {s : State} {n : Slot}
    (h : (timerStep s.tinc (s.voice percussion n)).2 = true) :
    s.slotStep percussion n = s.percussionVoice n (timerStep s.tinc (s.voice percussion n)).1 := by
  unfold State.slotStep
  simp only [h, if_true, melodicOf_percussion]

/-- What a frame reads to step a slot: everything but the other slots and the accumulators. -/
structure SameSlotInputs (s s' : State) (t : Track) (n : Slot) : Prop where
  voice : s'.voice t n = s.voice t n
  tinc : s'.tinc = s.tinc
  sampleRate : s'.sampleRate = s.sampleRate
  octave : s'.octave = s.octave
  length : s'.length = s.length
  mem : s'.mem = s.mem
  powerEpoch : s'.powerEpoch = s.powerEpoch
  params : s'.params = s.params
  vmix : s'.vmix = s.vmix
  vmixLow : s'.vmixLow = s.vmixLow
  vl : s'.vl = s.vl
  vr : s'.vr = s.vr

theorem State.slotStep_congr {s s' : State} {t : Track} {n : Slot} (h : SameSlotInputs s s' t n) :
    s'.slotStep t n = s.slotStep t n := by
  unfold State.slotStep State.melodicVoice State.percussionVoice State.envRead State.waveRead State.ramByte
    State.drumSample State.drumGain
  rw [h.voice, h.tinc, h.sampleRate, h.octave, h.length, h.mem, h.powerEpoch, h.params, h.vmix, h.vmixLow,
    h.vl, h.vr]

theorem State.slotStep_setAcc (s : State) (l r : BitVec 16) (t : Track) (n : Slot) :
    ({ s with accL := l, accR := r } : State).slotStep t n = s.slotStep t n :=
  State.slotStep_congr ⟨rfl, rfl, rfl, rfl, rfl, rfl, rfl, rfl, rfl, rfl, rfl, rfl⟩

/-- An accumulator after a slot: the contribution added with saturation, if there is one (R223). -/
def addContribution (acc : BitVec 16) (c : Option Int) : BitVec 16 :=
  match c with
  | none => acc
  | some c => addSat acc c

/-- All that one slot of a frame does. -/
theorem State.renderSlot_eq (s : State) (t : Track) (n : Slot) :
    s.renderSlot t n =
      { s with
        voices := (s.setVoice t n (s.slotStep t n).1).voices
        accL := addContribution s.accL ((s.slotStep t n).2.map Prod.fst)
        accR := addContribution s.accR ((s.slotStep t n).2.map Prod.snd) } := by
  unfold State.renderSlot
  rcases s.slotStep t n with ⟨v, _ | c⟩ <;> rfl

theorem State.renderSlot_inputs (s : State) (t t' : Track) (n n' : Slot) (h : ¬ (t' = t ∧ n' = n)) :
    SameSlotInputs s (s.renderSlot t n) t' n' := by
  rw [State.renderSlot_eq]
  refine ⟨?_, rfl, rfl, rfl, rfl, rfl, rfl, rfl, rfl, rfl, rfl, rfl⟩
  have := State.voice_setVoice s t t' n n' (s.slotStep t n).1
  rw [if_neg h] at this
  exact this

/-! ## All slots of a frame -/

/-- Every slot, in the order of the frame (R220). -/
def allSlots : List (Track × Slot) := tracks.flatMap fun t => slots.map fun n => (t, n)

theorem mem_allSlots (t : Track) (n : Slot) : (t, n) ∈ allSlots := by
  simp [allSlots]

theorem allSlots_nodup : allSlots.Nodup := by decide +kernel

/-- Rendering the slots of a list without repeats, from one state: each slot steps as that state has it, and the
contributions go into the accumulators in list order. -/
theorem foldl_renderSlot (l : List (Track × Slot)) (hl : l.Nodup) (s : State) :
    ∃ vs, l.foldl (fun s q => s.renderSlot q.1 q.2) s =
        { s with
          voices := vs
          accL := l.foldl (fun acc q => addContribution acc ((s.slotStep q.1 q.2).2.map Prod.fst)) s.accL
          accR := l.foldl (fun acc q => addContribution acc ((s.slotStep q.1 q.2).2.map Prod.snd)) s.accR } ∧
      ∀ t n, ({ s with voices := vs } : State).voice t n =
        if (t, n) ∈ l then (s.slotStep t n).1 else s.voice t n := by
  induction l generalizing s with
  | nil => exact ⟨s.voices, rfl, by simp [State.voice]⟩
  | cons q l ih =>
    obtain ⟨t₀, n₀⟩ := q
    rw [List.nodup_cons] at hl
    obtain ⟨vs, h₁, h₂⟩ := ih hl.2 (s.renderSlot t₀ n₀)
    have hne : ∀ q ∈ l, (s.renderSlot t₀ n₀).slotStep q.1 q.2 = s.slotStep q.1 q.2 := by
      intro q hq
      refine State.slotStep_congr (s.renderSlot_inputs _ _ _ _ ?_)
      rintro ⟨h, h'⟩
      exact hl.1 (by rw [← h, ← h']; exact hq)
    refine ⟨vs, ?_, ?_⟩
    · rw [List.foldl_cons, h₁]
      have e₁ : ∀ f : (Int × Int) → Int, ∀ acc,
          l.foldl (fun acc q => addContribution acc
            (((s.renderSlot t₀ n₀).slotStep q.1 q.2).2.map f)) acc =
          l.foldl (fun acc q => addContribution acc ((s.slotStep q.1 q.2).2.map f)) acc := by
        intro f acc
        refine List.foldl_ext _ _ _ ?_
        intro b q hq
        rw [hne q hq]
      rw [e₁, e₁, State.renderSlot_eq]
      rfl
    · intro t n
      have h := h₂ t n
      have hv : ({ s.renderSlot t₀ n₀ with voices := vs } : State).voice t n =
          ({ s with voices := vs } : State).voice t n := rfl
      rw [hv] at h
      rw [h]
      by_cases heq : t = t₀ ∧ n = n₀
      · obtain ⟨rfl, rfl⟩ := heq
        rw [if_neg hl.1, if_pos (by simp)]
        rw [State.renderSlot_eq]
        have := State.voice_setVoice s t t n n (s.slotStep t n).1
        rw [if_pos ⟨rfl, rfl⟩] at this
        exact this
      · have hne' : (t, n) ≠ (t₀, n₀) := fun hc => heq (by simpa using hc)
        by_cases hmem : (t, n) ∈ l
        · rw [if_pos hmem, if_pos (by simp [hmem]), hne _ hmem]
        · rw [if_neg hmem, if_neg (by simp [hmem, hne'])]
          exact (s.renderSlot_inputs t₀ t n₀ n heq).voice

theorem State.renderVoices_eq_foldl (s : State) :
    s.renderVoices =
      allSlots.foldl (fun s q => s.renderSlot q.1 q.2) { s with accL := 0, accR := 0 } := by
  unfold State.renderVoices State.renderTrack allSlots
  simp only [List.foldl_flatMap, List.foldl_map]

/-- Rendering a list that holds every slot once. -/
theorem foldl_renderSlot_all (l : List (Track × Slot)) (hl : l.Nodup) (hall : ∀ t n, (t, n) ∈ l) (s : State) :
    ∃ vs, l.foldl (fun s q => s.renderSlot q.1 q.2) s =
        { s with
          voices := vs
          accL := l.foldl (fun acc q => addContribution acc ((s.slotStep q.1 q.2).2.map Prod.fst)) s.accL
          accR := l.foldl (fun acc q => addContribution acc ((s.slotStep q.1 q.2).2.map Prod.snd)) s.accR } ∧
      ∀ t n, ({ s with voices := vs } : State).voice t n = (s.slotStep t n).1 := by
  obtain ⟨vs, h₁, h₂⟩ := foldl_renderSlot l hl s
  exact ⟨vs, h₁, fun t n => (h₂ t n).trans (if_pos (hall t n))⟩

/-- All that the voices of a frame do (R220, R221, R223): every slot steps as the frame found it, and the accumulators
hold the contributions added in track and slot order, each sum saturated, from 0. -/
theorem State.renderVoices_spec (s : State) :
    ∃ vs, s.renderVoices =
        { s with
          voices := vs
          accL := allSlots.foldl (fun acc q => addContribution acc ((s.slotStep q.1 q.2).2.map Prod.fst)) 0
          accR := allSlots.foldl (fun acc q => addContribution acc ((s.slotStep q.1 q.2).2.map Prod.snd)) 0 } ∧
      ∀ t n, ({ s with voices := vs } : State).voice t n = (s.slotStep t n).1 := by
  obtain ⟨vs, h₁, h₂⟩ := foldl_renderSlot_all allSlots allSlots_nodup mem_allSlots { s with accL := 0, accR := 0 }
  simp only [s.slotStep_setAcc 0 0] at h₁ h₂
  exact ⟨vs, s.renderVoices_eq_foldl.trans h₁, h₂⟩

/-- The slots after the voices of a frame. -/
theorem State.renderVoices_voice (s : State) (t : Track) (n : Slot) :
    s.renderVoices.voice t n = (s.slotStep t n).1 := by
  obtain ⟨vs, h₁, h₂⟩ := s.renderVoices_spec
  rw [h₁, ← h₂]; rfl

/-- The voices of a frame change the slots and the accumulators only. -/
theorem State.renderVoices_frame (s : State) :
    s.renderVoices =
      { s with voices := s.renderVoices.voices, accL := s.renderVoices.accL, accR := s.renderVoices.accR } := by
  obtain ⟨vs, h₁, -⟩ := s.renderVoices_spec
  rw [h₁]

/-- A frame is its tick check, its voices, and the output of what they accumulate (R220). -/
theorem State.renderFrame_eq (s : State) :
    s.renderFrame =
      { s.tickCheck.renderVoices with
        outL := s.tickCheck.renderVoices.accL
        outR := s.tickCheck.renderVoices.accR
        framePort := s.tickCheck.renderVoices.framePort ++
          [⟨s.tickCheck.renderVoices.accL, s.tickCheck.renderVoices.accR⟩] } := by
  unfold State.renderFrame
  generalize s.tickCheck.renderVoices = r
  rfl

/-- All that a frame changes, after its tick check: the slots, the accumulators, the output and the frame port. -/
theorem State.renderFrame_spec (s : State) :
    ∃ vs l r, s.renderFrame =
        { s.tickCheck with
          voices := vs, accL := l, accR := r, outL := l, outR := r,
          framePort := s.tickCheck.framePort ++ [⟨l, r⟩] } ∧
      (∀ t n, ({ s.tickCheck with voices := vs } : State).voice t n = (s.tickCheck.slotStep t n).1) ∧
      l = allSlots.foldl (fun acc q => addContribution acc ((s.tickCheck.slotStep q.1 q.2).2.map Prod.fst)) 0 ∧
      r = allSlots.foldl (fun acc q => addContribution acc ((s.tickCheck.slotStep q.1 q.2).2.map Prod.snd)) 0 := by
  obtain ⟨vs, h₁, h₂⟩ := s.tickCheck.renderVoices_spec
  refine ⟨vs, _, _, ?_, h₂, rfl, rfl⟩
  rw [State.renderFrame_eq, h₁]

/-- A frame writes no RAM (R229). -/
theorem State.ramByte_renderFrame (s : State) (x : Nat) : s.renderFrame.ramByte x = s.ramByte x := by
  obtain ⟨vs, l, r, h, -⟩ := s.renderFrame_spec
  have f := s.playEvents_frame
  have hm : s.tickCheck.mem = s.mem ∧ s.tickCheck.powerEpoch = s.powerEpoch := by
    rcases s.tickCheck_cases with ⟨-, e⟩ | ⟨-, e⟩ <;> rw [e]
    · exact ⟨f.mem, f.powerEpoch⟩
    · exact ⟨rfl, rfl⟩
  unfold State.ramByte
  rw [h, hm.1, hm.2]

end Sys2Proof.Machine
end

