-- ==== Sys2Proof/Laws/Step.lean ====
section
/-! SUPPORT. What a bus access, a command and a step can do, said once. -/

namespace Sys2Proof.Machine

/-! ## Bus accesses -/

/-- All that a bus read can do (R120). -/
theorem execRd_cases {s u : State} {a : Addr} (h : execRd a s = .next u) :
    ((s.target a).access = .absent ∧ u = { s.raiseError .addr (addrInfo a) with readData := some 0 }) ∨
    ((s.target a).access ≠ .absent ∧ u = { s with readData := some (s.readTarget (s.target a)) }) := by
  unfold execRd at h
  split at h <;> cases h <;> rename_i hx <;> simp_all

/-- All that a bus write can do (R121). -/
theorem execWr_cases {s u : State} {a : Addr} {d : Word} (h : execWr a d s = .next u) :
    (((s.target a).access = .absent ∨ (s.target a).access = .readOnly) ∧
      u = s.raiseError .addr (addrInfo a)) ∨
    ((s.target a).access = .command ∧ executeCommand d s = .next u) ∨
    ((s.target a).access = .locked ∧ s.ready = true ∧ u = s.raiseError .lock (addrInfo a)) ∨
    ((s.target a).access = .locked ∧ s.ready = false ∧ u = s.storeTarget (s.target a) d) := by
  unfold execWr at h
  split at h
  · cases h; simp_all
  · cases h; simp_all
  · rename_i hx; simp_all
  · rename_i hx
    split at h <;> cases h <;> simp_all

/-- Only address 4 is CMD, whatever the parameters. -/
theorem State.target_command {s : State} {a : Addr} (h : (s.target a).access = .command) : a = 4 := by
  unfold State.target at h
  split at h
  · rename_i ha
    by_cases h0 : a.toNat < 0x180
    · rw [addressMap_low _ _ h0] at h
      have := (addressMap_registers ⟨a.toNat, h0⟩ ha).2.2.1 h
      exact BitVec.eq_of_toNat_eq this
    · unfold addressMap at h
      rw [if_neg (show ¬ a.toNat < 0x100 by omega), if_neg h0] at h
      split at h
      · cases h
      · split at h
        · cases h
        · split at h
          · rw [voiceTarget_access] at h
            split at h <;> cases h
          · split at h
            · split at h <;> cases h
            · cases h
  · cases h

/-! ## Commands -/

/-- All that a command can do (R127). -/
theorem executeCommand_cases {s u : State} {d : Word} (h : executeCommand d s = .next u) :
    (d = 0 ∧ u = s) ∨ (d = 1 ∧ execArm s = .next u) ∨ (d = 2 ∧ u = { s with ready := false }) ∨
    (d = 3 ∧ execFrame s = .next u) ∨ (d = 4 ∧ u = s.clearErrors) ∨
    (4 < d.toNat ∧ u = s.raiseError .cmd d) := by
  unfold executeCommand execNop execDisarm execClrerr execCmdRsvd at h
  split at h
  · cases h; simp_all
  · split at h
    · simp_all
    · split at h
      · cases h; simp_all
      · split at h
        · simp_all
        · split at h
          · cases h; simp_all
          · cases h
            refine .inr (.inr (.inr (.inr (.inr ⟨?_, rfl⟩))))
            simp only [← BitVec.toNat_inj] at *
            simp at *
            omega

/-- All that an ARM can do (R129, R130). -/
theorem execArm_cases {s u : State} (h : execArm s = .next u) :
    (s.armFailMask = 0 ∧ u = s.armInit) ∨ (s.armFailMask ≠ 0 ∧ u = s.raiseError .cfg s.armFailMask) := by
  unfold execArm at h
  split at h <;> cases h <;> simp_all

/-- The configuration check passes exactly when every value is in range (R129). -/
theorem State.armFailMask_eq_zero (s : State) :
    s.armFailMask = 0 ↔
      s.sampleRate ≠ 0 ∧ 1 ≤ tincOf s.params.refRate s.sampleRate ∧
      tincOf s.params.refRate s.sampleRate < 4294967296 ∧
      0 ≤ s.recordCount.toInt ∧ s.recordCount.toInt ≤ s.params.noteDepth := by
  unfold State.armFailMask
  generalize tincOf s.params.refRate s.sampleRate = tinc
  by_cases h₁ : s.sampleRate = 0
  · rw [if_pos h₁]
    refine ⟨fun h => ?_, fun h => absurd h₁ h.1⟩
    split at h <;> exact absurd h (by decide)
  · rw [if_neg h₁]
    by_cases h₂ : tinc = 0 ∨ 4294967296 ≤ tinc
    · rw [if_pos h₂]
      refine ⟨fun h => ?_, fun h => by omega⟩
      split at h <;> exact absurd h (by decide)
    · rw [if_neg h₂]
      split
      · rename_i h₃
        exact ⟨fun h => absurd h (by decide), fun h => by omega⟩
      · rename_i h₃
        exact ⟨fun _ => ⟨h₁, by omega, by omega, by omega, by omega⟩, fun _ => rfl⟩

/-- All that a FRAME can do (R133, R134). -/
theorem execFrame_cases {s u : State} (h : execFrame s = .next u) :
    (s.ready = true ∧ u = s.renderFrame) ∨
    (s.ready = false ∧ u = { s with outL := 0, outR := 0, framePort := s.framePort ++ [⟨0, 0⟩] }) := by
  unfold execFrame at h
  split at h
  · rename_i hr
    exact .inl ⟨hr, (Host.Outcome.next.inj h).symm⟩
  · rename_i hr
    exact .inr ⟨by simpa using hr, (Host.Outcome.next.inj h).symm⟩

/-! ## Every instruction -/

/-- A property of the next state holds after every instruction, if it holds after each thing an instruction can do. -/
theorem exec_induction {s u : State} {i : Instr} (h : exec i s = .next u) (P : State → Prop)
    (same : P s) (read : ∀ v, P { s with readData := some v })
    (badRead : ∀ info, P { s.raiseError .addr info with readData := some 0 })
    (raise : ∀ c info, P (s.raiseError c info))
    (store : ∀ x d, s.ready = false → x.access = .locked → (∃ a, s.target a = x) → P (s.storeTarget x d))
    (arm : s.armFailMask = 0 → P s.armInit) (disarm : P { s with ready := false })
    (frame : s.ready = true → P s.renderFrame)
    (silent : s.ready = false → P { s with outL := 0, outR := 0, framePort := s.framePort ++ [⟨0, 0⟩] })
    (clear : P s.clearErrors) (event : ∀ t w, P (s.runEvent t w))
    (evPan : ∀ t trig p, P (s.runEvPan t trig p)) (evRsvd : ∀ t trig p, P (s.runEvRsvd t trig p)) : P u := by
  have hArm : ∀ {u}, execArm s = .next u → P u := by
    intro u h
    rcases execArm_cases h with ⟨hm, rfl⟩ | ⟨-, rfl⟩
    · exact arm hm
    · exact raise _ _
  have hFrame : ∀ {u}, execFrame s = .next u → P u := by
    intro u h
    rcases execFrame_cases h with ⟨hr, rfl⟩ | ⟨hr, rfl⟩
    · exact frame hr
    · exact silent hr
  cases i with
  | rd a =>
    rcases execRd_cases h with ⟨-, rfl⟩ | ⟨-, rfl⟩
    · exact badRead _
    · exact read _
  | wr a d =>
    rcases execWr_cases h with ⟨-, rfl⟩ | ⟨-, h⟩ | ⟨-, -, rfl⟩ | ⟨ha, hr, rfl⟩
    · exact raise _ _
    · rcases executeCommand_cases h with ⟨-, rfl⟩ | ⟨-, h⟩ | ⟨-, rfl⟩ | ⟨-, h⟩ | ⟨-, rfl⟩ | ⟨-, rfl⟩
      · exact same
      · exact hArm h
      · exact disarm
      · exact hFrame h
      · exact clear
      · exact raise _ _
    · exact raise _ _
    · exact store _ _ hr ha ⟨a, rfl⟩
  | nop => cases h; exact same
  | arm => exact hArm h
  | disarm => cases h; exact disarm
  | frame => exact hFrame h
  | clrerr => cases h; exact clear
  | cmdRsvd w => cases h; exact raise _ _
  | ev t trig =>
    cases h
    have := event t (trig.setWidth 32)
    rcases s.runEvent_cases t (trig.setWidth 32) with ⟨-, h⟩ | ⟨h, -⟩ | ⟨h, -⟩
    · rw [h] at this
      have e : eventTrig (trig.setWidth 32) = trig := by
        apply BitVec.eq_of_getLsbD_eq
        intro i hi
        simp [eventTrig, hi]; omega
      rwa [e] at this
    · have e : eventPan (trig.setWidth 32) = 0 := by
        apply BitVec.eq_of_toNat_eq
        have := trig.isLt
        simp [eventPan, Nat.shiftRight_eq_div_pow]; omega
      rw [e] at h; simp at h
    · have e : eventPan (trig.setWidth 32) = 0 := by
        apply BitVec.eq_of_toNat_eq
        have := trig.isLt
        simp [eventPan, Nat.shiftRight_eq_div_pow]; omega
      rw [e] at h; simp at h
  | evPan t trig p => cases h; exact evPan t trig p
  | evRsvd t trig p => cases h; exact evRsvd t trig p

/-- Every instruction has a next state. -/
theorem exec_next (i : Instr) (s : State) : ∃ u, exec i s = .next u := by
  have hArm : ∃ u, execArm s = .next u := by unfold execArm; split <;> exact ⟨_, rfl⟩
  have hFrame : ∃ u, execFrame s = .next u := by unfold execFrame; split <;> exact ⟨_, rfl⟩
  have hCmd : ∀ d, ∃ u, executeCommand d s = .next u := by
    intro d
    unfold executeCommand
    split_ifs
    · exact ⟨_, rfl⟩
    · exact hArm
    · exact ⟨_, rfl⟩
    · exact hFrame
    · exact ⟨_, rfl⟩
    · exact ⟨_, rfl⟩
  cases i with
  | rd a => simp only [exec, execRd]; split <;> exact ⟨_, rfl⟩
  | wr a d =>
    simp only [exec, execWr]
    split
    · exact ⟨_, rfl⟩
    · exact ⟨_, rfl⟩
    · exact hCmd d
    · split <;> exact ⟨_, rfl⟩
  | arm => exact hArm
  | frame => exact hFrame
  | _ => exact ⟨_, rfl⟩

/-! ## The step -/

/-- All that a step can do: nothing, one event of the platform, an ignored transaction, or one instruction. -/
theorem step_cases {s u : State} (h : step s = .next u) :
    (s.inbox = [] ∧ u = s.clearPorts) ∨
    ∃ ev rest, s.inbox = ev :: rest ∧
      ((∃ x, ev = .bus x ∧ s.resetLine = true ∧ u = ({ s.clearPorts with inbox := rest } : State).ignoreTxn x) ∨
      (∃ x, ev = .bus x ∧ s.resetLine = false ∧
        exec (decodeBus x) { s.clearPorts with inbox := rest } = .next u) ∨
      (∃ level, (ev = .resetInput level ∨ (level = true ∧ ∃ x, ev = .resetDuring x)) ∧
        u = ({ s.clearPorts with inbox := rest } : State).driveReset level) ∨
      (ev = .powerOn ∧ u = ({ s.clearPorts with inbox := rest } : State).cyclePower)) := by
  unfold step fetch at h
  cases hb : s.inbox with
  | nil => rw [hb] at h; cases h; exact .inl ⟨rfl, rfl⟩
  | cons ev rest =>
    rw [hb] at h
    refine .inr ⟨ev, rest, rfl, ?_⟩
    cases ev with
    | bus x =>
      cases hr : s.resetLine with
      | true =>
        have hr' : s.clearPorts.resetLine = true := hr
        dsimp only at h
        rw [if_pos hr'] at h
        cases h
        exact .inl ⟨x, rfl, rfl, rfl⟩
      | false =>
        have hr' : ¬ s.clearPorts.resetLine = true := by rw [Bool.not_eq_true]; exact hr
        dsimp only at h
        rw [if_neg hr'] at h
        exact .inr (.inl ⟨x, rfl, rfl, h⟩)
    | resetInput level => cases h; exact .inr (.inr (.inl ⟨level, .inl rfl, rfl⟩))
    | resetDuring x => cases h; exact .inr (.inr (.inl ⟨true, .inr ⟨rfl, x, rfl⟩, rfl⟩))
    | powerOn => cases h; exact .inr (.inr (.inr ⟨rfl, rfl⟩))

/-- A property that reset, power-on, every instruction and the outside world's own fields keep is kept by a step. -/
theorem step_induction (P : State → Prop) {s u : State} (hs : P s) (h : step s = .next u)
    (outside : ∀ (s : State) line ib rd fp, P s →
      P { s with resetLine := line, inbox := ib, readData := rd, framePort := fp })
    (reset : ∀ s, P s → P s.resetRegisters) (power : ∀ s, P s → P s.cyclePower)
    (instr : ∀ i s u, P s → exec i s = .next u → P u) : P u := by
  rcases step_cases h with ⟨-, rfl⟩ | ⟨ev, rest, -, h⟩
  · exact outside s s.resetLine s.inbox none [] hs
  · have h₁ : P { s.clearPorts with inbox := rest } := outside s s.resetLine rest none [] hs
    rcases h with ⟨x, -, -, rfl⟩ | ⟨x, -, -, h⟩ | ⟨level, -, rfl⟩ | ⟨-, rfl⟩
    · cases x with
      | read a => exact outside s s.resetLine rest (some 0) [] hs
      | write a d => exact h₁
    · exact instr _ _ _ h₁ h
    · cases level with
      | false => exact outside s false rest none [] hs
      | true => exact outside _ true rest none [] (reset _ h₁)
    · exact power _ h₁

/-- Every state has a next state. -/
theorem step_next (s : State) : ∃ u, step s = .next u := by
  unfold step
  cases fetch s with
  | idle t => exact ⟨t, rfl⟩
  | run i t => exact exec_next i t

end Sys2Proof.Machine
end

