-- ==== Sys2Proof/Tests/Slice0.lean ====
section
/-! SUPPORT. Tests. Every expected value is one of spec/95_test_vectors.md or of an example in the rule the test names, or
is worked out by hand from the rule. The last part shows, for each obligation with hypotheses, a concrete state and
operands that meet them all, at the ends of the ranges. -/

namespace Sys2Proof.Tests

open Sys2Proof Sys2Proof.Machine

/-! The tests are checked one after another: each waits for the kernel, and a thread for every waiting test is too many
under the checker's memory limit. -/

set_option Elab.async false

/-! ## Helpers -/

/-- CFG-A of spec/95_test_vectors.md. -/
def cfgA : Params where
  refRate := 20000
  freqTable := Vector.ofFn fun k => BitVec.ofNat 32 (0x00800000 + k.val * 0x00100000)
  panTable := #v[-2560, -1600, -760, -320, 0, 320, 760, 1640]
  drums := [[0x80, 0xFF, 0x00, 0x80], List.replicate 64 0x00]
  drumMap := Vector.ofFn fun n => n.val % 2
  noteDepth := 1024
  frameLatency := 1

/-- The block of CFG-A after reset. -/
def idle : State := State.resetWith cfgA

/-- The block of CFG-A right after an ARM of a small score: the first position holds EV slot 0, EV.PAN 1, EV.RSVD 8
slot 0, and EV slot 1 on tracks 0 to 3; track 0 plays 64 at full envelope. -/
def playing : State :=
  { idle with
    ready := true, sampleRate := 20000, tickMs := 5, endTick := 2, recordCount := 2,
    length := #v[101, 101, 0], volume := Vector.replicate 4 300,
    tinc := 0x00010000, spt := 100, vmix := Vector.replicate 4 32768, vmixLow := 14304,
    mem :=
      [(0x1000, 64), (0x1001, 64), (0x2000, 255),
        (0x100000, 0x01), (0x100001, 0x00), (0x100002, 0x00), (0x100003, 0x00),
        (0x200000, 0x00), (0x200001, 0x00), (0x200002, 0x00), (0x200003, 0x01),
        (0x300000, 0x01), (0x300001, 0x00), (0x300002, 0x00), (0x300003, 0x08),
        (0x400000, 0x02), (0x400001, 0x00), (0x400002, 0x00), (0x400003, 0x00)] }

/-- A playing block between ticks, melodic slot 0 of track 0 and percussion slot 1 sounding. -/
def sounding : State :=
  ({ playing with pos := 1, cd := 3 }.setVoice 0 0 ⟨0x000000640000, 0x00800000, 0⟩).setVoice percussion 1
    ⟨0x0000003F0000, 0, 0x000000010000⟩

/-- What f reads in the state after an instruction. -/
def after {α : Type} (i : Instr) (s : State) (f : State → α) : Option α :=
  match exec i s with
  | .next t => some (f t)
  | .fault _ => none
  | .refused _ => none

/-- What f reads in the state after a step. -/
def afterStep {α : Type} (s : State) (f : State → α) : Option α :=
  match step s with
  | .next t => some (f t)
  | .fault _ => none
  | .refused _ => none

/-! ## Well-formed terms: one ill-formed term for each check -/

theorem test_wellFormed_wr_cmd : Instr.wellFormed (.wr 0x04 1) = false := by decide

theorem test_wellFormed_cmdRsvd : Instr.wellFormed (.cmdRsvd 4) = false := by decide

theorem test_wellFormed_evPan_low : Instr.wellFormed (.evPan 0 1 0) = false := by decide

theorem test_wellFormed_evPan_high : Instr.wellFormed (.evPan 0 1 8) = false := by decide

theorem test_wellFormed_evRsvd : Instr.wellFormed (.evRsvd 0 1 7) = false := by decide

/-! ## Decoding, each word written out from R91 to R98 -/

theorem test_decode_rd : decodeBytes .busRead [0x44, 0x00, 0x00] = .ok (.rd 0x000044) := rfl

theorem test_decode_wr :
    decodeBytes .busWrite [0x0C, 0x00, 0x00, 0x44, 0xAC, 0x00, 0x00] = .ok (.wr 0x00000C 44100) := rfl

theorem test_decode_nop : decodeBytes .command [0x00, 0x00, 0x00, 0x00] = .ok .nop := rfl

theorem test_decode_arm : decodeBytes .command [0x01, 0x00, 0x00, 0x00] = .ok .arm := rfl

theorem test_decode_disarm : decodeBytes .command [0x02, 0x00, 0x00, 0x00] = .ok .disarm := rfl

theorem test_decode_frame :
    decodeBytes .busWrite [0x04, 0x00, 0x00, 0x03, 0x00, 0x00, 0x00] = .ok .frame := rfl

theorem test_decode_clrerr : decodeBytes .command [0x04, 0x00, 0x00, 0x00] = .ok .clrerr := rfl

theorem test_decode_cmdRsvd : decodeBytes .command [0x00, 0x01, 0x00, 0x00] = .ok (.cmdRsvd 0x00000100) := rfl

theorem test_decode_ev : decodeEvent 1 0b00000000000000000010000000000001 = .ev 1 0x002001 := by decide

theorem test_decode_evPan : decodeBytes (.note 0) [0x01, 0x20, 0x00, 0x01] = .ok (.evPan 0 0x002001 1) := rfl

theorem test_decode_evPan_last : decodeEvent 3 0b00000111100000000000000000000000 = .evPan 3 0x800000 7 := by decide

theorem test_decode_evRsvd : decodeEvent 2 0b00001000000000000000000000000001 = .evRsvd 2 0x000001 8 := by decide

theorem test_decode_evRsvd_last : decodeEvent 3 0xFF000000 = .evRsvd 3 0 255 := by decide

theorem test_decode_length : decodeBytes .command [0x01, 0x00, 0x00] = .error .wrongLength := rfl

/-- R106: the assembler's example. -/
theorem test_assemble : assembleEventSlots [0, 13] 1 = 0x01002001 := by decide

/-! ## Shared operations -/

/-- R14, and the GAIN table of spec/95_test_vectors.md. -/
theorem test_gain :
    [0, -8, -720, -1600, -2400, -4000, -8679, -9632, -9633, -10000].map gain =
      [32768, 32468, 14304, 5193, 2068, 328, 1, 1, 0, 0] := by decide +kernel

/-- R158, R160: the volume rows -1, 300 and -950. -/
theorem test_volume_gains :
    [-1, 300, -950].map (fun v : Int => (mb v, (7 * v).tdiv 10)) = [(-2408, 0), (0, 210), (-10000, -665)] := by decide

/-- R151, R152. -/
theorem test_rates :
    tincOf 22050 48000 = 30105 ∧ sptOf 22050 3 = 66 ∧ sptOf 20000 (-5) = 1 ∧
      sptOf 0xFFFFFFFF 0x7FFFFFFF = 9223372030412324 := by decide +kernel

/-- R184 to R187: pitch of slot 17, wrap of the second tap, stride 0 from octave 8 on. -/
theorem test_phase :
    phaseStep { cfgA with refRate := 22050 } 0 44100 17 = 0x00340000 ∧
      tap0 0xFF800000 = 255 ∧ tap1 1 0xFF800000 = 1 ∧ tap1 8 0x12345678 = 0x12 ∧
      phaseFraction 0x12345678 = 0x3456 := by decide +kernel

/-- R182, R188, R189: the envelope index of frame 50, an interpolation, and floors toward minus infinity. -/
theorem test_melodic :
    envIndex 101 (BitVec.ofNat 48 (50 * 65536)) = 32 ∧ interp (-128) (-127) 0x4000 = -8372224 ∧
      melodicMix (-8372224) 200 32768 32768 = -25550 ∧ melodicMix (-65536) 1 16384 32768 = -1 ∧
      melodicMix (64 * 65536) 255 32768 5193 = 2586 := by decide +kernel

/-- R223. -/
theorem test_saturation : (addSat 30000 5000).toInt = 32767 ∧ (addSat (-30000) (-5000)).toInt = -32768 := by decide

/-! ## Instructions, one step each -/

/-- R65: `RD 0x0A`. -/
theorem test_rd_misaligned :
    after (.rd 0x0A) idle (fun t => (t.readData, t.errAddr, t.errCause, t.errInfo)) =
      some (some 0, true, 1, 0x0A) := by decide +kernel

/-- R69: VOL_LEFT.0 after reset. -/
theorem test_rd_volLeft : after (.rd 0x114) idle State.readData = some (some 0x8000) := by decide +kernel

/-- R125: `WR 0x1000, 0x8040_C07F`. -/
theorem test_wr_wave :
    after (.wr 0x1000 0x8040C07F) idle (fun t => [0, 1, 2, 3].map (t.waveRead 0)) =
      some [127, -64, 64, -128] := by decide +kernel

/-- R122, R249 (a): `WR VOLUME.0` while playing. -/
theorem test_wr_locked :
    after (.wr 0x108 500) playing (fun t => (t.statusWord, t.errCause, t.errInfo, t.volume[0])) =
      some (0x05, 2, 0x108, 300) := by decide +kernel

/-- R128. -/
theorem test_nop : exec .nop playing = .next playing := rfl

/-- R129: `SAMPLE_RATE` = 0 and `RECORD_COUNT` = -1. -/
theorem test_arm_refused :
    after .arm { idle with recordCount := -1 } (fun t => (t.ready, t.errCause, t.errInfo)) =
      some (false, 4, 5) := by decide +kernel

/-- R130 to R131: an ARM of a sounding block. -/
theorem test_arm :
    after .arm { sounding with outL := 7 } (fun t => (t.tinc, t.spt, t.pos, t.cd, t.voice 0 0, t.outL)) =
      some (0x00010000, 100, 0, 0, ⟨0, 0, 0⟩, 7) := by decide +kernel

/-- R132. -/
theorem test_disarm :
    after .disarm sounding (fun t => (t.ready, t.pos, t.cd, (t.voice 0 0).timer)) =
      some (false, 1, 3, 0x640000) := by decide +kernel

/-- TV-SEQ-1 with a drum added: 64 x 255 from track 0, and from percussion slot 1 the byte 0x00 at VMIXLOW,
-128 x 256 x 14304 / 32768 = -14304; the reserved pan field of track 2 raises 2 x 256 + 8. -/
theorem test_frame :
    after .frame playing (fun t => (t.outL.toInt, t.outR.toInt, t.pos, t.cd, t.errInfo)) =
      some (2016, 2016, 1, 99, 0x208) := by decide +kernel

/-- R134. -/
theorem test_frame_silent :
    after .frame { sounding with ready := false, outL := 5 } (fun t => (t.framePort, (t.voice 0 0).timer)) =
      some ([⟨0, 0⟩], 0x640000) := by decide +kernel

/-- R135. -/
theorem test_clrerr :
    after .clrerr { playing with errLock := true, errCause := 2, errInfo := 0x108 }
      (fun t => (t.statusWord, t.errCause, t.errInfo)) = some (0x01, 0, 0) := by decide +kernel

/-- R136: `WR CMD, 0x0000_0103`. -/
theorem test_cmdRsvd :
    after (.cmdRsvd 0x103) playing (fun t => (t.errCmd, t.errInfo, t.framePort)) = some (true, 0x103, []) := by
  decide +kernel

/-- R156: LENGTH 101 on slot 3. -/
theorem test_ev_melodic : after (.ev 0 0x000008) playing (fun t => (t.voice 0 3).timer) = some 0x650000 := by
  decide +kernel

/-- R157: drum 1 on percussion slot 1. -/
theorem test_ev_percussion : after (.ev 3 0x000002) idle (fun t => (t.voice 3 1).timer) = some 0x400000 := by
  decide +kernel

/-- R161: pan index 1 under PAN-A. -/
theorem test_evPan : after (.evPan 1 0 1) playing (fun t => (t.vl[1], t.vr[1])) = some (32768, 5193) := by
  decide +kernel

/-- R162: 0x0800_0001 on track 2. -/
theorem test_evRsvd :
    after (.evRsvd 2 0x000001 8) playing (fun t => (t.errCause, t.errInfo, t.vr[2], (t.voice 2 0).fphase)) =
      some (5, 0x208, 32768, 0) := by decide +kernel

/-! ## The step runs what the table word says -/

theorem test_step_frame : (afterStep (idle.withFetchWord 32 3) State.framePort) = some [⟨0, 0⟩] := by decide +kernel

theorem test_step_event : afterStep (idle.withFetchWord 32 0x09000001) State.errInfo = some 9 := by decide +kernel

/-! ## Legal states -/

theorem cfgA_valid : cfgA.Valid := by decide +kernel

theorem sounding_gains : sounding.GainsLegal ∧ sounding.PanLegal := by
  unfold State.GainsLegal State.PanLegal
  decide +kernel

theorem sounding_play : sounding.PlayLegal ∧ sounding.LatchLegal := by
  unfold State.PlayLegal State.LatchLegal
  decide +kernel

theorem sounding_voices : sounding.MelodicLegal ∧ sounding.DrumLegal := by
  unfold State.MelodicLegal State.DrumLegal
  decide +kernel

theorem sounding_timeline : sounding.TimelineLegal := by
  unfold State.TimelineLegal
  decide +kernel

theorem sounding_memory : sounding.MemoryLegal := by
  refine ⟨by decide +kernel, ?_⟩
  have h : ∀ c ∈ sounding.mem,
      (0x1000 ≤ c.1 ∧ c.1 < 0x1300) ∨ (0x2000 ≤ c.1 ∧ c.1 < 0x20C0) ∨
        ∃ t : Track, noteAddr t 0 ≤ c.1 ∧ c.1 < noteAddr t 0 + 4 * sounding.params.noteDepth := by
    decide +kernel
  exact h

/-! ## Witnesses: states and operands that meet the hypotheses of the obligations -/

theorem witness_DecodeInvertsEncode :
    ∀ i ∈ [Instr.rd 0xFFFFFF, .wr 0x08 0, .arm, .cmdRsvd 5, .cmdRsvd 0xFFFFFFFF, .ev 3 0xFFFFFF, .evPan 0 0 1,
      .evPan 3 0 7, .evRsvd 0 0 8, .evRsvd 3 0xFFFFFF 255], i.wellFormed = true := by decide

theorem witness_StepRunsDecodedInstruction :
    ({ idle with inbox := [.bus (.read 0)] } : State).inbox = .bus (.read 0) :: [] ∧
      ({ idle with inbox := [.bus (.read 0)] } : State).resetLine = false ∧ idle.inbox = [] := ⟨rfl, rfl, rfl⟩

/-- Both clauses on the position, at both ends of [0, `RECORD_COUNT`). -/
theorem witness_TickRunsDecodedEvents :
    (playing.pos.toInt = (0 : Nat) ∧ ((0 : Nat) : Int) < playing.recordCount.toInt) ∧
      (sounding.pos.toInt = (1 : Nat) ∧ ((1 : Nat) : Int) < sounding.recordCount.toInt) ∧
      ({ playing with pos := -1 } : State).pos.toInt < 0 ∧
      playing.recordCount.toInt ≤ ({ playing with pos := 2 } : State).pos.toInt := by decide +kernel

theorem witness_ResetSetsEveryRegister :
    ({ sounding with inbox := [.resetInput true] } : State).inbox = HostEvent.resetInput true :: [] ∧
      ({ sounding with inbox := [.resetDuring (.write 0x04 3)] } : State).inbox =
        HostEvent.resetDuring (.write 0x04 3) :: [] ∧
      ({ sounding with inbox := [.powerOn] } : State).inbox = HostEvent.powerOn :: [] ∧
      HostEvent.resetInput true ≠ .powerOn := ⟨rfl, rfl, rfl, nofun⟩

theorem witness_ResetHoldsOffTransactions :
    ({ idle with resetLine := true, inbox := [.bus (.read 0x0A)] } : State).inbox = .bus (.read 0x0A) :: [] ∧
      ({ idle with resetLine := true, inbox := [.bus (.write 0x0C 1)] } : State).inbox =
        .bus (.write 0x0C 1) :: [] ∧
      ({ idle with resetLine := true, inbox := [.bus (.write 0x0C 1)] } : State).resetLine = true :=
  ⟨rfl, rfl, rfl⟩

/-- The bytes next to the word a bus write addresses, for the instruction and for the step. -/
theorem witness_PowerOnRedrawsRam :
    ({ sounding with inbox := [.powerOn] } : State).inbox = .powerOn :: [] ∧
      (∀ b d, Instr.wr 0x1000 7 = .wr b d → 0xFFF < b.toNat ∨ b.toNat + 4 ≤ 0xFFF) ∧
      (∀ b d, Instr.wr 0x1000 7 = .wr b d → 0x1004 < b.toNat ∨ b.toNat + 4 ≤ 0x1004) ∧
      ({ idle with inbox := [.bus (.write 0x1000 7)] } : State).inbox.head? ≠ some .powerOn ∧
      ∀ b d, ({ idle with inbox := [.bus (.write 0x1000 7)] } : State).inbox.head? = some (.bus (.write b d)) →
        0x1004 < b.toNat ∨ b.toNat + 4 ≤ 0x1004 := by
  refine ⟨rfl, ?_, ?_, nofun, ?_⟩ <;> · intro b d h; cases h; decide

theorem witness_ReadMemoryWindows :
    idle.params.noteDepth ≤ 262144 ∧ 63 < 64 ∧ 15 < 16 ∧ 1023 < idle.params.noteDepth := by decide

/-- Mapped addresses at the ends of their ranges. -/
theorem mapped_addresses :
    ∀ a ∈ [0x04, 0x44, 0x108, 0x178, 0x1000, 0x12FC, 0x2000, 0x20BC, 0x10000, 0x10EF0, 0x100000, 0x100FFC, 0x400FFC],
      MappedAddr 1024 a := by
  have h : ∀ a ∈ [0x04, 0x44, 0x108, 0x178, 0x1000, 0x12FC, 0x2000, 0x20BC, 0x10000, 0x10EF0, 0x100000, 0x100FFC,
      0x400FFC], a % 4 = 0 ∧ (addressMap 1024 a).access ≠ .absent := by decide +kernel
  intro a ha
  obtain ⟨h₁, h₂, h₃⟩ := addressMap_access 1024 a (by decide) (h a ha).1
  cases hx : (addressMap 1024 a).access with
  | readOnly => exact .inr (.inr (h₂.1 hx))
  | command => exact .inl (h₃.1 hx)
  | locked => exact .inr (.inl (h₁.1 hx))
  | absent => exact absurd hx (h a ha).2

/-- Unmapped addresses next to the ends of the ranges, and a misaligned one. -/
theorem unmapped_addresses :
    ∀ a ∈ [0x0A, 0x48, 0xFC, 0x110, 0x11C, 0x160, 0x180, 0xFFC, 0x1300, 0x20C0, 0x10014, 0x10300, 0x101000, 0x500000,
      0xFFFFFC], ¬ MappedAddr 1024 a := by
  have h : ∀ a ∈ [0x0A, 0x48, 0xFC, 0x110, 0x11C, 0x160, 0x180, 0xFFC, 0x1300, 0x20C0, 0x10014, 0x10300, 0x101000,
      0x500000, 0xFFFFFC], a % 4 ≠ 0 ∨ (addressMap 1024 a).access = .absent := by decide +kernel
  intro a ha hm
  obtain ⟨h₁, h₂, h₃⟩ := addressMap_access 1024 a (by decide) hm.aligned
  have hx := (h a ha).resolve_left (not_not.2 hm.aligned)
  rw [hx] at h₁ h₂ h₃
  rcases hm with hm | hm | hm
  · exact absurd (h₃.2 hm) (by decide)
  · exact absurd (h₁.2 hm) (by decide)
  · exact absurd (h₂.2 hm) (by decide)

theorem witness_ReadOutsideTheMap :
    idle.params.noteDepth ≤ 262144 ∧ ¬ MappedAddr idle.params.noteDepth (0x101000 : Addr).toNat ∧
      MappedAddr idle.params.noteDepth (0x100FFC : Addr).toNat :=
  ⟨by decide, unmapped_addresses _ (by decide), mapped_addresses _ (by decide)⟩

theorem witness_WriteRefused :
    idle.params.noteDepth ≤ 262144 ∧ ¬ MappedAddr idle.params.noteDepth (0x0A : Addr).toNat ∧
      ReadOnlyAddr (0x44 : Addr).toNat := by
  refine ⟨by decide, unmapped_addresses _ (by decide), .inl (by decide)⟩

theorem witness_WriteLocked :
    playing.params.noteDepth ≤ 262144 ∧ playing.ready = true ∧
      LockAddr playing.params.noteDepth (0x0C : Addr).toNat ∧
      LockAddr playing.params.noteDepth (0x100FFC : Addr).toNat :=
  ⟨by decide, rfl, .inl (by decide), LockAddr.of_note (by decide) (by decide)⟩

theorem witness_WriteRegisters : idle.ready = false := rfl

theorem witness_WriteOctave : idle.ready = false := rfl

/-- The three windows, at their last words. -/
theorem witness_WriteMemory :
    idle.ready = false ∧ idle.params.noteDepth ≤ 262144 ∧
      (63 < 64 ∧ (0x12FC : Addr) = BitVec.ofNat 24 (0x1000 + 0x100 * (2 : Melodic).val + 4 * 63)) ∧
      (15 < 16 ∧ (0x20BC : Addr) = BitVec.ofNat 24 (0x2000 + 0x40 * (2 : Melodic).val + 4 * 15)) ∧
      (1023 < idle.params.noteDepth ∧
        (0x400FFC : Addr) = BitVec.ofNat 24 (0x100000 + 0x100000 * (3 : Track).val + 4 * 1023)) := by decide

theorem witness_ReadAfterWrite :
    idle.ready = false ∧ idle.params.noteDepth ≤ 262144 ∧
      LockAddr idle.params.noteDepth (0x140 : Addr).toNat ∧ LockAddr idle.params.noteDepth (0x20BC : Addr).toNat :=
  ⟨rfl, by decide, .inr (.inl ⟨2, .inl rfl⟩), LockAddr.of_env (by decide) (by decide)⟩

/-- The fail masks 1, 5, 2, 6 and 4. -/
theorem witness_ArmRefusedWithMask :
    ∀ q ∈ ([(idle, 1, 0), ({ idle with recordCount := -1 }, 1, 4), ({ idle with sampleRate := 0xFFFFFFFF }, 2, 0),
        ({ idle with sampleRate := 0xFFFFFFFF, recordCount := -1 }, 2, 4),
        ({ idle with sampleRate := 20000, recordCount := 1025 }, 0, 4)] : List (State × Nat × Nat)),
      q.2.1 = (if q.1.sampleRate = 0 then 1
        else if q.1.params.refRate * 2 ^ 16 / q.1.sampleRate.toNat = 0 ∨
            2 ^ 32 ≤ q.1.params.refRate * 2 ^ 16 / q.1.sampleRate.toNat then 2
        else 0) ∧
      q.2.2 = (if q.1.recordCount.toInt < 0 ∨ (q.1.params.noteDepth : Int) < q.1.recordCount.toInt then 4 else 0) ∧
      q.2.1 + q.2.2 ≠ 0 := by decide +kernel

/-- The largest record count, and the smallest rate at which TINC fits CFG-A's reference rate. -/
theorem witness_ArmInitialisesPlay :
    ∀ s ∈ [{ idle with sampleRate := 20000, recordCount := 1024 }, { idle with sampleRate := 1 }],
      s.sampleRate ≠ 0 ∧ 1 ≤ s.params.refRate * 2 ^ 16 / s.sampleRate.toNat ∧
        s.params.refRate * 2 ^ 16 / s.sampleRate.toNat < 2 ^ 32 ∧ 0 ≤ s.recordCount.toInt ∧
        s.recordCount.toInt ≤ s.params.noteDepth := by decide +kernel

theorem witness_ArmWhilePlayingRestarts : sounding.ready = true ∧ sounding.PlayLegal := ⟨rfl, sounding_play.1⟩

theorem witness_FrameNotReadyIsSilent : idle.ready = false := rfl

theorem witness_ReservedCommandRaises : 4 < (5 : Word).toNat ∧ 4 < (0xFFFFFFFF : Word).toNat := by decide

theorem witness_RaiseErrorRecordsTheFirst :
    idle.errCause = 0 ∧ ({ idle with errCause := 2, errLock := true } : State).errCause ≠ 0 := by decide

/-- A melodic slot, and percussion slots with the first and the last sample of CFG-A. -/
theorem witness_EvTriggersSlots :
    (2 : Track) = (2 : Melodic).track ∧ (0x800001 : BitVec 24).getLsbD (23 : Slot).val = true ∧
      (0x800001 : BitVec 24).getLsbD (0 : Slot).val = true ∧ playing.params.Valid ∧
      playing.params.drums[playing.params.drumMap[(0 : Slot)]]? = some [0x80, 0xFF, 0x00, 0x80] ∧
      playing.params.drums[playing.params.drumMap[(23 : Slot)]]? = some (List.replicate 64 0x00) :=
  ⟨rfl, by decide, by decide, cfgA_valid, by decide +kernel, by decide +kernel⟩

theorem witness_EvPanSetsPan :
    (1 ≤ (1 : Fin 8).val ∧ (1 : BitVec 8).toNat = (1 : Fin 8).val) ∧
      (1 ≤ (7 : Fin 8).val ∧ (7 : BitVec 8).toNat = (7 : Fin 8).val) := by decide

theorem witness_EvRsvdRaisesPan : 8 ≤ (8 : BitVec 8).toNat ∧ 8 ≤ (255 : BitVec 8).toNat := by decide

theorem witness_PanTableEnds :
    playing.params.Valid ∧ (∃ u, exec (.evPan 1 0 4) playing = .next u) ∧
      (∃ u, exec (.evPan 1 0 1) playing = .next u) ∧ ∃ v, exec (.evPan 1 0 7) playing = .next v :=
  ⟨cfgA_valid, exec_next _ _, exec_next _ _, exec_next _ _⟩

/-- Both clauses, where they meet. -/
theorem witness_AdvancePosWraps :
    sounding.endTick.toInt ≤ sounding.pos.toInt + 1 ∧ playing.pos.toInt + 1 < playing.endTick.toInt := by
  decide +kernel

/-- Position 0 with a loop, with REPEAT_TICK at END_TICK, and with END_TICK not positive. -/
theorem witness_TimelinePositions :
    ∀ s ∈ [playing, { playing with repeatTick := 2 }, { playing with repeatTick := -3, endTick := 0 }],
      s.pos = 0 := by decide +kernel

theorem witness_GainIsNearest : ((-10000 : Int) ≤ -10000 ∧ (-10000 : Int) ≤ 0) ∧ (-10000 : Int) ≤ 0 ∧ (0 : Int) ≤ 0 := by
  decide

theorem witness_FrameIsSaturatedSum : playing.ready = true := rfl

theorem witness_FrameLeavesTheRest : playing.ready = true := rfl

theorem witness_TickEverySptFrames : playing.ready = true ∧ playing.cd = 0 ∧ 1 ≤ playing.spt.toNat := by decide +kernel

/-- Timers on both sides of 0, and a skipped slot. -/
theorem witness_NoteSoundsWhileTimerLasts :
    (⟨0, 0, 0⟩ : Voice).timer.toInt ≤ 0 ∧ 0 < (⟨1, 0, 0⟩ : Voice).timer.toInt ∧
      (timerStep sounding.tinc (sounding.voice 1 0)).2 = false := by decide +kernel

/-- A timer at the ends of (0, LENGTH x 2^16). -/
theorem witness_EnvelopeIndexInRange :
    (0 < (1 : BitVec 48).toInt ∧ (1 : BitVec 48).toInt < (1 : Word).toInt * 65536) ∧
      (0 < (65535 : BitVec 48).toInt ∧ (65535 : BitVec 48).toInt < (1 : Word).toInt * 65536) := by decide

theorem witness_MelodicVoiceValue :
    sounding.sampleRate ≠ 0 ∧
      timerStep sounding.tinc (sounding.voice (0 : Melodic).track 0) = (⟨0x630000, 0x00800000, 0⟩, true) := by
  decide +kernel

/-- Percussion slot 1 stepping to its last byte, where the second tap is the zero level, and one byte further, past the
end. -/
theorem witness_PercussionVoiceValue :
    ∀ q ∈ ([(62 * 65536, 63), (63 * 65536, 64)] : List (BitVec 48 × Nat)),
      timerStep 0x00010000 ((sounding.setVoice percussion 1 ⟨0x20000, 0, q.1⟩).voice percussion 1) =
          (⟨0x10000, 0, q.1⟩, true) ∧
        (sounding.setVoice percussion 1 ⟨0x20000, 0, q.1⟩).tinc = 0x00010000 ∧
        q.1.toNat + sounding.tinc.toNat < 2 ^ 48 ∧ q.2 = (q.1.toNat + sounding.tinc.toNat) / 2 ^ 16 ∧
        sounding.params.drums[sounding.params.drumMap[(1 : Slot)]]? = some (List.replicate 64 0x00) ∧
        (q.2 < (List.replicate 64 (0x00 : Byte)).length ∨ (List.replicate 64 (0x00 : Byte)).length ≤ q.2) := by
  decide +kernel

/-- Gains at unity, and a LIVE slot of each kind that contributes. -/
theorem witness_ContributionRange :
    sounding.GainsLegal ∧ (∃ c, (sounding.slotStep (0 : Melodic).track 0).2 = some c) ∧
      ∃ c, (sounding.slotStep percussion 1).2 = some c :=
  ⟨sounding_gains.1, Option.isSome_iff_exists.1 rfl, Option.isSome_iff_exists.1 (by decide +kernel)⟩

theorem witness_LiveDrumPassesEndCheck :
    sounding.ready = true ∧ sounding.params.Valid ∧ sounding.DrumLegal ∧
      (timerStep sounding.tinc (sounding.voice percussion 1)).2 = true :=
  ⟨rfl, cfgA_valid, sounding_voices.2, by decide +kernel⟩

/-- Track 1 has no LIVE slot in `sounding`, whose next frame does not tick: changing the track's first waveform byte, its
OCTAVE and its LENGTH meets the hypotheses; of track 0, slot 1 is not LIVE and slot 0 is. -/
theorem witness_SilentTrackRamIsUnread :
    sounding.ready = true ∧ (timerStep sounding.tinc (sounding.voice 0 1)).2 = false ∧
      (timerStep sounding.tinc (sounding.voice 0 0)).2 = true ∧ sounding.cd ≠ 0 ∧
      (∀ m' : Melodic, m' ≠ 1 → (sounding.octave.set 1 7)[m'] = sounding.octave[m'] ∧
        (sounding.length.set 1 5)[m'] = sounding.length[m']) ∧
      (∀ a, ¬ (waveAddr 1 0 ≤ a ∧ a < waveAddr 1 256) → ¬ (envAddr 1 0 ≤ a ∧ a < envAddr 1 64) →
        ({ sounding with mem := Memory.write sounding.mem (waveAddr 1 0) 5 } : State).ramByte a =
          sounding.ramByte a) ∧
      (∀ n : Slot, (timerStep sounding.tinc (sounding.tickCheck.voice (1 : Melodic).track n)).2 = false) ∧
      ∃ u, exec .frame sounding = .next u := by
  refine ⟨rfl, by decide +kernel, by decide +kernel, by decide +kernel, by decide +kernel, fun a ha _ => ?_,
    by decide +kernel, exec_next _ _⟩
  unfold State.ramByte
  rw [Memory.lookup_write, if_neg]
  rintro rfl
  exact ha (by decide)

theorem witness_RenderSinkReadsTheFrame :
    ({ sounding with inbox := (framesTxns 1).map HostEvent.bus } : State).resetLine = false ∧
      ({ sounding with inbox := (framesTxns 1).map HostEvent.bus } : State).inbox =
        (framesTxns 1).map HostEvent.bus ++ [] := ⟨rfl, rfl⟩

theorem witness_StepKeepsMemoryLegal : sounding.MemoryLegal ∧ ∃ u, step sounding = .next u :=
  ⟨sounding_memory, step_next _⟩

theorem witness_StepKeepsGainsLegal : sounding.GainsLegal ∧ sounding.PanLegal ∧ ∃ u, step sounding = .next u :=
  ⟨sounding_gains.1, sounding_gains.2, step_next _⟩

theorem witness_StepKeepsPlayLegal : sounding.PlayLegal ∧ sounding.LatchLegal ∧ ∃ u, step sounding = .next u :=
  ⟨sounding_play.1, sounding_play.2, step_next _⟩

theorem witness_StepKeepsVoicesLegal :
    sounding.params.Valid ∧ sounding.MelodicLegal ∧ sounding.DrumLegal ∧ ∃ u, step sounding = .next u :=
  ⟨cfgA_valid, sounding_voices.1, sounding_voices.2, step_next _⟩

theorem witness_StepKeepsErrorLegal :
    ({ sounding with errLock := true, errCause := 2 } : State).ErrorLegal ∧
      ∃ u, step { sounding with errLock := true, errCause := 2 } = .next u :=
  ⟨.inr ⟨.lock, rfl, rfl⟩, step_next _⟩

theorem witness_StepKeepsTimelineLegal : sounding.TimelineLegal ∧ ∃ u, step sounding = .next u :=
  ⟨sounding_timeline, step_next _⟩

theorem witness_OnlyArmSetsReady :
    (∃ u, exec .arm { sounding with ready := false } = .next u ∧ u.ready = true) ∧
      ({ sounding with ready := false } : State).ready = false :=
  ⟨⟨_, rfl, rfl⟩, rfl⟩

theorem witness_PlayingLocksTheScore : sounding.ready = true ∧ ∃ u, exec (.wr 0x0C 1) sounding = .next u :=
  ⟨rfl, exec_next _ _⟩

theorem witness_BusAccessesLeavePlayState :
    (∃ u, exec (.rd 0x38) sounding = .next u) ∧ (0x00 : Addr) ≠ 0x04 ∧ ∃ u, exec (.wr 0x00 3) sounding = .next u :=
  ⟨exec_next _ _, by decide, exec_next _ _⟩

theorem witness_OnlyFrameStrobes :
    (∃ u, exec .frame sounding = .next u) ∧ (∃ u, exec (.wr 0x04 3) sounding = .next u) ∧
      (∃ u, exec .nop sounding = .next u) ∧ Instr.nop ≠ .frame ∧ Instr.nop ≠ .wr 0x04 3 :=
  ⟨exec_next _ _, exec_next _ _, exec_next _ _, nofun, nofun⟩

theorem witness_ErrorsAreSticky :
    (∃ u, exec (.rd 0x0A) { idle with errLock := true, errCause := 2 } = .next u) ∧
      Instr.rd 0x0A ≠ .clrerr ∧ Instr.rd 0x0A ≠ .wr 0x04 4 ∧
      ({ idle with errLock := true, errCause := 2 } : State).errorFlag .lock = true ∧
      ({ idle with errLock := true, errCause := 2 } : State).errCause ≠ 0 :=
  ⟨exec_next _ _, nofun, nofun, rfl, by decide⟩

/-- TV-SRC-2 at offset 0: an image of no bytes, given to a block that plays. -/
theorem witness_TruncatedLoadNeverPlays :
    sounding.inbox = [] ∧ sounding.resetLine = false ∧ imageRecordCount [] ≤ 262144 ∧
      ([] : List Byte).length < imageSize [] := by decide +kernel

end Sys2Proof.Tests
end

/-! The scope family (spec/00_scope.md): a step of the bus (R7, R63), the gain curve against the real curve of R14, and
the ends of a legal pan table (R10, R161). -/

namespace Sys2Proof.Machine

/-! ## A step that executes a bus transaction (R7, R63, R121) -/

/-- Every command word is a well-formed command: the reserved ones are those above 4 (R93, R94). -/
theorem decodeCommand_wellFormed (d : Word) : (decodeCommand d).wellFormed = true := by
  unfold decodeCommand
  split_ifs with h0 h1 h2 h3 h4
  case neg =>
    have hd : 4 < d.toNat := by bv_omega
    simpa [Instr.wellFormed] using hd
  all_goals rfl

/-- Every bus transaction is a well-formed instruction: a write to CMD is a command, never a WR (R121). -/
theorem decodeBus_wellFormed (x : BusTxn) : (decodeBus x).wellFormed = true := by
  cases x with
  | read a => rfl
  | write a d =>
    simp only [decodeBus]
    split_ifs with ha
    · exact decodeCommand_wellFormed d
    · simpa [Instr.wellFormed, cmdAddr] using ha

theorem step_of_inbox_nil {s : State} (h : s.inbox = []) : step s = .next s.clearPorts := by
  unfold step fetch
  rw [h]

theorem step_of_inbox_bus {s : State} {x : BusTxn} {rest : List HostEvent} (h : s.inbox = .bus x :: rest)
    (hr : s.resetLine = false) : step s = exec (decodeBus x) { s.clearPorts with inbox := rest } := by
  simp [step, fetch, State.clearPorts, h, hr]

/-- Settles O4: the one step a queued transaction starts is exec of a well-formed instruction. -/
theorem stepRunsDecodedInstruction : Obligations.StepRunsDecodedInstruction :=
  ⟨fun _ x _ h hr => ⟨decodeBus_wellFormed x, step_of_inbox_bus h hr⟩, fun _ h => step_of_inbox_nil h⟩

/-! ## The gain curve over the reals (R14) -/

/-- The value that `GAIN(m)` rounds: 32768 x 10^(m / 2000) (R14). -/
noncomputable def exactGain (m : Int) : ℝ := 32768 * (10 : ℝ) ^ ((m : ℝ) / 2000)

theorem exactGain_pos (m : Int) : 0 < exactGain m := by unfold exactGain; positivity

/-- Raised to the power of the divisor, the curve's doubled value is a ratio of integers. -/
theorem two_mul_exactGain_pow {m : Int} (hm : m ≤ 0) :
    (2 * exactGain m) ^ gainDivisor * 10 ^ (-m).toNat = 65536 ^ gainDivisor := by
  have hd : (gainDivisor : ℝ) = 2000 := by norm_num [gainDivisor]
  have hroot : ((10 : ℝ) ^ ((m : ℝ) / 2000)) ^ gainDivisor = (10 : ℝ) ^ m := by
    rw [← Real.rpow_natCast, ← Real.rpow_mul (by norm_num), hd, div_mul_cancel₀ _ (by norm_num), Real.rpow_intCast]
  have hinv : (10 : ℝ) ^ m * 10 ^ (-m).toNat = 1 := by
    rw [← zpow_natCast, ← zpow_add₀ (by norm_num), show m + ((-m).toNat : Int) = 0 by omega, zpow_zero]
  have htwo : 2 * exactGain m = 65536 * (10 : ℝ) ^ ((m : ℝ) / 2000) := by unfold exactGain; ring
  rw [htwo, mul_pow, hroot, mul_assoc, hinv, mul_one]

/-- The model's comparison of integers says that g - 1/2 is at most the value of the real curve. -/
theorem gainFits_iff_le_exactGain {m : Int} (hm : m ≤ 0) (g : Nat) :
    gainFits (-m).toNat g = true ↔ ((2 * g - 1 : Nat) : ℝ) ≤ 2 * exactGain m := by
  have hx : 0 ≤ 2 * exactGain m := by linarith [exactGain_pos m]
  have hk : (0 : ℝ) < 10 ^ (-m).toNat := by positivity
  rw [← pow_le_pow_iff_left₀ (Nat.cast_nonneg _) hx gainDivisor_pos.ne', ← mul_le_mul_iff_left₀ hk,
    two_mul_exactGain_pow hm, gainFits_iff]
  exact_mod_cast Iff.rfl

/-- An odd number is no root of the equation of `two_mul_exactGain_pow`: the right side is even, and no multiple of 5. -/
theorem odd_pow_mul_ten_pow_ne (g k : Nat) : (2 * g + 1) ^ gainDivisor * 10 ^ k ≠ 65536 ^ gainDivisor := by
  intro h
  cases k with
  | zero =>
    have := Nat.pow_left_injective gainDivisor_pos.ne' (by simpa using h)
    omega
  | succ k =>
    have h5 : 5 ∣ 65536 ^ gainDivisor := h ▸ Dvd.dvd.mul_left (dvd_pow (by norm_num) k.succ_ne_zero) _
    exact absurd (Nat.prime_five.dvd_of_dvd_pow h5) (by norm_num)

/-- Rounding has no ties: the curve never passes halfway between two integers. -/
theorem two_mul_exactGain_ne_odd {m : Int} (hm : m ≤ 0) (g : Nat) : 2 * exactGain m ≠ 2 * g + 1 := by
  intro h
  have hpow := two_mul_exactGain_pow hm
  rw [h] at hpow
  exact odd_pow_mul_ten_pow_ne g _ (by exact_mod_cast hpow)

/-- The gain is less than half a unit above the curve: what fits is at most half a unit above, and there are no ties. -/
theorem gain_lt_exactGain_add_half {m : Int} (hm : m ≤ 0) : (gain m : ℝ) < exactGain m + 1 / 2 := by
  have hfits := (gainFits_iff_le_exactGain hm _).1 (gain_spec m).1
  cases hg : gain m with
  | zero => rw [Nat.cast_zero]; linarith [exactGain_pos m]
  | succ g =>
    rw [hg, show 2 * (g + 1) - 1 = 2 * g + 1 by omega] at hfits
    push_cast at hfits ⊢
    linarith [lt_of_le_of_ne hfits (two_mul_exactGain_ne_odd hm g).symm]

/-- The gain is less than half a unit below the curve, for the next value does not fit. -/
theorem exactGain_lt_gain_add_half {m : Int} (hm : m ≤ 0) : exactGain m < gain m + 1 / 2 := by
  have hnext := (gainFits_iff_le_exactGain hm (gain m + 1)).not.1 (by simp [(gain_spec m).2])
  rw [show 2 * (gain m + 1) - 1 = 2 * gain m + 1 by omega] at hnext
  push_cast at hnext
  linarith

/-- Settles O36: the search's answer is within half a unit of the curve on both sides. -/
theorem gainIsNearest : Obligations.GainIsNearest := by
  intro m _ hm
  have habove := gain_lt_exactGain_add_half hm
  have hbelow := exactGain_lt_gain_add_half hm
  rw [← exactGain, abs_lt]
  constructor <;> linarith

/-! ## The ends of the pan table (R10, R161) -/

/-- A gain register grows with its argument (R14). -/
theorem gainReg_mono {q q' : Int} (h : q ≤ q') : (gainReg q).toNat ≤ (gainReg q').toNat := by
  rw [gainReg_toNat, gainReg_toNat, clamp_eq q (by decide), clamp_eq q' (by decide)]
  exact gain_mono (by omega)

/-- Every negative argument attenuates, already -1 (R14). -/
theorem gainReg_lt_unity {q : Int} (h : q < 0) : (gainReg q).toNat < 32768 := by
  have hstep : (gainReg (-1)).toNat < 32768 := by decide +kernel
  exact lt_of_le_of_lt (gainReg_mono (by omega)) hstep

/-- The pan multipliers of its track after an EV.PAN (R161). -/
theorem exec_evPan_multipliers {s u : State} {t : Track} {trig : BitVec 24} {p : BitVec 8}
    (h : exec (.evPan t trig p) s = .next u) :
    u.vl[t] = gainReg (-s.panEntry p) ∧ u.vr[t] = gainReg (s.panEntry p) := by
  have hu : u = (s.eventCommon t trig).setPan t ((s.eventCommon t trig).panEntry p) :=
    (Host.Outcome.next.inj h).symm
  have hq : (s.eventCommon t trig).panEntry p = s.panEntry p := by rw [State.eventCommon_frame]; rfl
  rw [hq] at hu
  simp [hu]

/-- The entry of an index in 1 to 7 of a legal table is at least that of index 1, the most attenuating one (R10). -/
theorem State.panEntry_one_le {s : State} (hs : s.params.Valid) {p : BitVec 8} (h1 : 1 ≤ p.toNat)
    (h7 : p.toNat ≤ 7) : s.panEntry 1 ≤ s.panEntry p := by
  obtain ⟨-, -, -, hmin, -⟩ := hs
  have hp : p.toNat < 8 := by omega
  have hentry : s.panEntry p = s.params.panTable[p.toNat] := dif_pos hp
  rw [hentry]
  exact hmin ⟨p.toNat, hp⟩ h1

/-- Settles O33: entry 4 is 0, and entry 1 is negative and least. -/
theorem panTableEnds : Obligations.PanTableEnds := by
  intro s t trig u hs
  have ⟨_, hcentre, hleft, _⟩ := hs
  constructor
  · intro hu
    obtain ⟨hvl, hvr⟩ := exec_evPan_multipliers hu
    have hq : s.panEntry 4 = 0 := hcentre
    rw [hvl, hvr, hq]
    exact ⟨gainReg_of_nonneg le_rfl, gainReg_of_nonneg le_rfl⟩
  · intro hu
    obtain ⟨hvl, hvr⟩ := exec_evPan_multipliers hu
    have hq : s.panEntry 1 < 0 := hleft
    rw [hvl, hvr]
    refine ⟨gainReg_of_nonneg (by omega), gainReg_lt_unity hq, fun p v h1 h7 hv => ?_⟩
    rw [(exec_evPan_multipliers hv).2]
    exact gainReg_mono (State.panEntry_one_le hs h1 h7)

end Sys2Proof.Machine

/-! The state family (spec/10_state.md): what an instruction can do to a predicate of the state, said once, and from it
the invariants of RAM (R33 to R35, R49), of the gains (R43 to R45), of the voice slots (R40 to R42) and of the error
record (R23, R24), and what single instructions reach (R22, R52). -/

namespace Sys2Proof.Machine

/-! ## Raising an error (R241) -/

/-- The flags after raising an error: that of its cause, and those set before. -/
theorem State.errorFlag_raiseError (s : State) (c c' : ErrorCause) (info : Word) :
    (s.raiseError c info).errorFlag c' = (s.errorFlag c' || decide (c' = c)) := by
  cases c' <;> simp [State.errorFlag, eq_comm]

/-- A record that is not empty stays as it is. -/
theorem State.raiseError_keeps_record {s : State} (h : s.errCause ≠ 0) (c : ErrorCause) (info : Word) :
    (s.raiseError c info).errCause = s.errCause ∧ (s.raiseError c info).errInfo = s.errInfo := by
  rw [State.raiseError_errCause, State.raiseError_errInfo, if_neg h, if_neg h]
  exact ⟨rfl, rfl⟩

/-- An empty record takes the cause and its information word. -/
theorem State.raiseError_fills_record {s : State} (h : s.errCause = 0) (c : ErrorCause) (info : Word) :
    (s.raiseError c info).errCause = c.code ∧ (s.raiseError c info).errInfo = info := by
  rw [State.raiseError_errCause, State.raiseError_errInfo, if_pos h, if_pos h]
  exact ⟨rfl, rfl⟩

/-- Settles O29: the flags, the record empty and not empty, and raising an error as one record update. -/
theorem raiseErrorRecordsTheFirst : Obligations.RaiseErrorRecordsTheFirst := by
  intro s c info
  refine ⟨fun c' => s.errorFlag_raiseError c c' info, fun h => ?_,
    fun h => State.raiseError_keeps_record h c info, _, _, _, _, _, _, _, s.raiseError_eq c info⟩
  obtain ⟨hcause, hinfo⟩ := State.raiseError_fills_record h c info
  refine ⟨hcause.trans ?_, hinfo⟩
  cases c <;> rfl

/-- Every flag set in s is set in u, and a record that s holds is the record of u (R23, R241). -/
def ErrorsKept (s u : State) : Prop :=
  (∀ c, s.errorFlag c = true → u.errorFlag c = true) ∧
    (s.errCause ≠ 0 → u.errCause = s.errCause ∧ u.errInfo = s.errInfo)

theorem ErrorsKept.refl (s : State) : ErrorsKept s s := ⟨fun _ h => h, fun _ => ⟨rfl, rfl⟩⟩

theorem ErrorsKept.raiseError {s u : State} (h : ErrorsKept s u) (c : ErrorCause) (info : Word) :
    ErrorsKept s (u.raiseError c info) := by
  obtain ⟨hflag, hrecord⟩ := h
  constructor
  · intro c' hc
    rw [State.errorFlag_raiseError, hflag c' hc, Bool.true_or]
  · intro hs
    obtain ⟨hcause, hinfo⟩ := hrecord hs
    obtain ⟨hcause', hinfo'⟩ := State.raiseError_keeps_record (hcause ▸ hs : u.errCause ≠ 0) c info
    exact ⟨hcause'.trans hcause, hinfo'.trans hinfo⟩

/-! ## Stores (R123 to R125) -/

/-- A store writes a configuration register or RAM, and nothing else. -/
theorem State.storeTarget_frame (s : State) (x : Target) (d : Word) :
    s.storeTarget x d =
      { s with
        sampleRate := (s.storeTarget x d).sampleRate, tickMs := (s.storeTarget x d).tickMs
        repeatTick := (s.storeTarget x d).repeatTick, endTick := (s.storeTarget x d).endTick
        recordCount := (s.storeTarget x d).recordCount, octave := (s.storeTarget x d).octave
        length := (s.storeTarget x d).length, volume := (s.storeTarget x d).volume
        mem := (s.storeTarget x d).mem } := by
  cases x <;> rfl

/-! ## Predicates that every instruction keeps -/

/-- P is kept by every operation of which bus reads, refused accesses, frames and event words are made: what moves the
timeline, the mixer's registers and the model's own ports, and the operations on slots, gains, pan and errors. -/
structure KeptByPlay (P : State → Prop) : Prop where
  timeline : ∀ s pos cd, P s → P { s with pos := pos, cd := cd }
  mix : ∀ s accL accR outL outR, P s → P { s with accL := accL, accR := accR, outL := outL, outR := outR }
  outside : ∀ s line ib rd fp, P s → P { s with resetLine := line, inbox := ib, readData := rd, framePort := fp }
  triggers : ∀ s t trig, P s → P (s.applyTriggers t trig)
  slots : ∀ s, P s → P s.renderVoices
  gains : ∀ s t, P s → P (s.recomputeGains t)
  pan : ∀ s t q, P s → P (s.setPan t q)
  raise : ∀ s c info, P s → P (s.raiseError c info)

namespace KeptByPlay

/-- A predicate that does not read the voice slots is kept by triggers and by the voices of a frame. -/
theorem of_voices_unread {P : State → Prop}
    (voices : ∀ s vs accL accR outL outR, P s →
      P { s with voices := vs, accL := accL, accR := accR, outL := outL, outR := outR })
    (timeline : ∀ s pos cd, P s → P { s with pos := pos, cd := cd })
    (outside : ∀ s line ib rd fp, P s → P { s with resetLine := line, inbox := ib, readData := rd, framePort := fp })
    (gains : ∀ s t, P s → P (s.recomputeGains t)) (pan : ∀ s t q, P s → P (s.setPan t q))
    (raise : ∀ s c info, P s → P (s.raiseError c info)) : KeptByPlay P where
  timeline := timeline
  mix s := voices s s.voices
  outside := outside
  triggers s t trig hs := by
    rw [State.applyTriggers_frame]
    exact voices s _ s.accL s.accR s.outL s.outR hs
  slots s hs := by
    rw [State.renderVoices_frame]
    exact voices s _ _ _ s.outL s.outR hs
  gains := gains
  pan := pan
  raise := raise

variable {P : State → Prop} {s u : State}

theorem eventCommon (k : KeptByPlay P) (t : Track) (trig : BitVec 24) (hs : P s) : P (s.eventCommon t trig) :=
  k.gains _ t (k.triggers s t trig hs)

theorem runEvPan (k : KeptByPlay P) (t : Track) (trig : BitVec 24) (p : BitVec 8) (hs : P s) :
    P (s.runEvPan t trig p) := k.pan _ t _ (k.eventCommon t trig hs)

theorem runEvRsvd (k : KeptByPlay P) (t : Track) (trig : BitVec 24) (p : BitVec 8) (hs : P s) :
    P (s.runEvRsvd t trig p) := k.raise _ _ _ (k.eventCommon t trig hs)

theorem runEvent (k : KeptByPlay P) (t : Track) (w : Word) (hs : P s) : P (s.runEvent t w) := by
  unfold State.runEvent
  split_ifs
  · exact k.eventCommon t _ hs
  · exact k.runEvPan t _ _ hs
  · exact k.runEvRsvd t _ _ hs

theorem tickCheck (k : KeptByPlay P) (hs : P s) : P s.tickCheck := by
  rcases s.tickCheck_cases with ⟨-, h⟩ | ⟨-, h⟩ <;> rw [h]
  · exact k.timeline _ _ _ (s.playEvents_induction P (fun _ t w => k.runEvent t w) hs)
  · exact k.timeline s s.pos _ hs

theorem strobe (k : KeptByPlay P) (hs : P s) : P s.strobe := k.outside s s.resetLine s.inbox s.readData _ hs

theorem renderFrame (k : KeptByPlay P) (hs : P s) : P s.renderFrame :=
  k.strobe (k.mix _ _ _ _ _ (k.slots _ (k.tickCheck hs)))

/-- A FRAME keeps P, in both modes (R133, R134). -/
theorem execFrame (k : KeptByPlay P) (hs : P s) (h : execFrame s = .next u) : P u := by
  rcases execFrame_cases h with ⟨-, rfl⟩ | ⟨-, rfl⟩
  · exact k.renderFrame hs
  · exact k.strobe (k.mix s s.accL s.accR 0 0 hs)

/-- A bus read keeps P (R74, R120). -/
theorem execRd (k : KeptByPlay P) {a : Addr} (hs : P s) (h : execRd a s = .next u) : P u := by
  rcases execRd_cases h with ⟨-, rfl⟩ | ⟨-, rfl⟩
  · exact k.outside _ _ _ _ _ (k.raise s _ _ hs)
  · exact k.outside s s.resetLine s.inbox _ s.framePort hs

/-- An ARM keeps P or initialises play (R129, R130). -/
theorem execArm (k : KeptByPlay P) (hs : P s) (h : execArm s = .next u) : P u ∨ u = s.armInit := by
  rcases execArm_cases h with ⟨-, rfl⟩ | ⟨-, rfl⟩
  · exact .inr rfl
  · exact .inl (k.raise s _ _ hs)

/-- All that an instruction can do to such a predicate: keep it, or be a store, an ARM, a DISARM or a CLRERR. -/
theorem exec_cases (k : KeptByPlay P) {i : Instr} (hs : P s) (h : exec i s = .next u) :
    P u ∨ (∃ a d, i = .wr a d ∧ s.ready = false ∧ u = s.storeTarget (s.target a) d) ∨
    ((i = .arm ∨ i = .wr 0x04 1) ∧ u = s.armInit) ∨
    ((i = .disarm ∨ i = .wr 0x04 2) ∧ u = { s with ready := false }) ∨
    ((i = .clrerr ∨ i = .wr 0x04 4) ∧ u = s.clearErrors) := by
  cases i with
  | rd a => exact .inl (k.execRd hs h)
  | wr a d =>
    rcases execWr_cases h with ⟨-, rfl⟩ | ⟨ha, hc⟩ | ⟨-, -, rfl⟩ | ⟨-, hr, rfl⟩
    · exact .inl (k.raise s _ _ hs)
    · obtain rfl := State.target_command ha
      rcases executeCommand_cases hc with ⟨-, rfl⟩ | ⟨rfl, hc⟩ | ⟨rfl, rfl⟩ | ⟨-, hc⟩ | ⟨rfl, rfl⟩ | ⟨-, rfl⟩
      · exact .inl hs
      · exact (k.execArm hs hc).imp_right fun hu => .inr (.inl ⟨.inr rfl, hu⟩)
      · exact .inr (.inr (.inr (.inl ⟨.inr rfl, rfl⟩)))
      · exact .inl (k.execFrame hs hc)
      · exact .inr (.inr (.inr (.inr ⟨.inr rfl, rfl⟩)))
      · exact .inl (k.raise s _ _ hs)
    · exact .inl (k.raise s _ _ hs)
    · exact .inr (.inl ⟨a, d, rfl, hr, rfl⟩)
  | nop => cases h; exact .inl hs
  | arm => exact (k.execArm hs h).imp_right fun hu => .inr (.inl ⟨.inl rfl, hu⟩)
  | disarm => cases h; exact .inr (.inr (.inr (.inl ⟨.inl rfl, rfl⟩)))
  | frame => exact .inl (k.execFrame hs h)
  | clrerr => cases h; exact .inr (.inr (.inr (.inr ⟨.inl rfl, rfl⟩)))
  | cmdRsvd w => cases h; exact .inl (k.raise s _ _ hs)
  | ev t trig => cases h; exact .inl (k.eventCommon t trig hs)
  | evPan t trig p => cases h; exact .inl (k.runEvPan t trig p hs)
  | evRsvd t trig p => cases h; exact .inl (k.runEvRsvd t trig p hs)

end KeptByPlay

/-- P is kept by all that a step can do: besides the operations of play, the stores of configuration mode, what ARM,
DISARM and CLRERR do, reset, and the new draw of RAM at a power-on. -/
structure KeptByStep (P : State → Prop) : Prop extends KeptByPlay P where
  store : ∀ s a d, s.ready = false → P s → P (s.storeTarget (s.target a) d)
  arm : ∀ s, P s → P s.armInit
  disarm : ∀ s, P s → P { s with ready := false }
  clear : ∀ s, P s → P s.clearErrors
  reset : ∀ s, P s → P s.resetRegisters
  redraw : ∀ s epoch, P s → P { s with mem := [], powerEpoch := epoch }

namespace KeptByStep

variable {P : State → Prop} {s u : State}

theorem exec (k : KeptByStep P) {i : Instr} (hs : P s) (h : exec i s = .next u) : P u := by
  rcases k.exec_cases hs h with hu | ⟨a, d, -, hr, rfl⟩ | ⟨-, rfl⟩ | ⟨-, rfl⟩ | ⟨-, rfl⟩
  · exact hu
  · exact k.store s a d hr hs
  · exact k.arm s hs
  · exact k.disarm s hs
  · exact k.clear s hs

theorem cyclePower (k : KeptByStep P) (hs : P s) : P s.cyclePower :=
  k.redraw _ _ (k.outside _ true s.inbox none [] (k.reset s hs))

/-- The invariant rule: what every part of a step keeps, a step keeps. -/
theorem step (k : KeptByStep P) (hs : P s) (h : step s = .next u) : P u :=
  step_induction P hs h k.outside k.reset (fun _ => k.cyclePower) (fun _ _ _ => k.exec)

end KeptByStep

/-! ## RAM (R33 to R35, R49) -/

theorem RamAddr.of_wave {depth : Nat} {m : Melodic} {j x : Nat} (hj : j < 64) (hx : waveAddr m (4 * j) ≤ x)
    (hx' : x < waveAddr m (4 * j) + 4) : RamAddr depth x := by
  unfold waveAddr at hx hx'
  exact .inl (by omega)

theorem RamAddr.of_env {depth : Nat} {m : Melodic} {j x : Nat} (hj : j < 16) (hx : envAddr m (4 * j) ≤ x)
    (hx' : x < envAddr m (4 * j) + 4) : RamAddr depth x := by
  unfold envAddr at hx hx'
  exact .inr (.inl (by omega))

theorem RamAddr.of_note {depth : Nat} {t : Track} {j x : Nat} (hj : j < depth) (hx : noteAddr t j ≤ x)
    (hx' : x < noteAddr t j + 4) : RamAddr depth x := by
  refine .inr (.inr ⟨t, ?_⟩)
  unfold noteAddr at hx hx' ⊢
  omega

/-- Storing a word whose bytes are all RAM cells. -/
theorem State.MemoryLegal.writeRamWord {s : State} (h : s.MemoryLegal) {a : Nat} (d : Word)
    (ha : ∀ x, a ≤ x → x < a + 4 → RamAddr s.params.noteDepth x) : (s.writeRamWord a d).MemoryLegal := by
  obtain ⟨hwf, hcells⟩ := h
  refine ⟨Memory.wf_writeWord hwf a d, fun c hc => ?_⟩
  rcases Memory.mem_writeWord hc with ⟨hlo, hhi⟩ | hc
  · exact ha _ hlo hhi
  · exact hcells c hc

/-- The words of a target in RAM lie within the RAM it names. -/
def Target.WithinRam (depth : Nat) : Target → Prop
  | .wave _ j => j < 64
  | .env _ j => j < 16
  | .note _ j => j < depth
  | _ => True

/-- The address map selects words within their RAM only (R70, R71). -/
theorem State.target_withinRam (s : State) (a : Addr) : (s.target a).WithinRam s.params.noteDepth := by
  unfold State.target addressMap
  split_ifs with ha
  · unfold controlTarget; split <;> trivial
  · unfold trackTarget; split <;> (try split) <;> trivial
  · simp only [Target.WithinRam]; omega
  · simp only [Target.WithinRam]; omega
  · unfold voiceTarget; split <;> (try split) <;> trivial
  · assumption
  all_goals trivial

theorem State.MemoryLegal.storeTarget {s : State} (h : s.MemoryLegal) (a : Addr) (d : Word) :
    (s.storeTarget (s.target a) d).MemoryLegal := by
  have hj := s.target_withinRam a
  cases hx : s.target a with rw [hx] at hj
  | wave m j => exact h.writeRamWord d fun x => RamAddr.of_wave hj
  | env m j => exact h.writeRamWord d fun x => RamAddr.of_env hj
  | note t j => exact h.writeRamWord d fun x => RamAddr.of_note hj
  | _ => exact h

theorem memoryLegal_keptByStep : KeptByStep State.MemoryLegal where
  toKeptByPlay := .of_voices_unread (fun _ _ _ _ _ _ h => h) (fun _ _ _ h => h) (fun _ _ _ _ _ h => h)
    (fun s t h => by rwa [State.recomputeGains_eq]) (fun _ _ _ h => h) (fun s c i h => by rwa [State.raiseError_eq])
  store _ a d _ h := h.storeTarget a d
  arm _ h := h
  disarm _ h := h
  clear _ h := h
  reset _ h := h
  redraw _ _ _ := ⟨rfl, nofun⟩

/-- Settles O48: only a store writes RAM, and the address map keeps its word within the RAM it names. -/
theorem stepKeepsMemoryLegal : Obligations.StepKeepsMemoryLegal := fun _ _ hs h => memoryLegal_keptByStep.step hs h

/-! ## Gains and pan (R43 to R45, R161, R222) -/

/-- What a vector holds after one of its elements is set. -/
theorem getElem_set_fin {α : Type} {n : Nat} (v : Vector α n) (i j : Fin n) (x : α) :
    (v.set i.val x)[j] = if j = i then x else v[j] := by
  simp only [Fin.getElem_fin, Vector.getElem_set, Fin.ext_iff, eq_comm]

theorem gainsLegal_recomputeGains {s : State} (h : s.GainsLegal) (t : Track) : (s.recomputeGains t).GainsLegal := by
  obtain ⟨htracks, hlow⟩ := h
  constructor
  · intro t'
    obtain ⟨hvmix, hvl, hvr⟩ := htracks t'
    rw [State.recomputeGains_vmix, State.recomputeGains_vl, State.recomputeGains_vr, getElem_set_fin]
    refine ⟨?_, hvl, hvr⟩
    split
    · exact volumeGain_toNat_le _
    · exact hvmix
  · rw [State.recomputeGains_vmixLow]
    split
    · exact volumeGainLow_toNat_le _
    · exact hlow

/-- A pan update keeps the gains in range, for the gain curve ends at unity (R14, R161). -/
theorem gainsLegal_setPan {s : State} (h : s.GainsLegal) (t : Track) (q : Int) : (s.setPan t q).GainsLegal := by
  obtain ⟨htracks, hlow⟩ := h
  refine ⟨fun t' => ?_, hlow⟩
  obtain ⟨hvmix, hvl, hvr⟩ := htracks t'
  rw [State.setPan_vl, State.setPan_vr, getElem_set_fin, getElem_set_fin]
  split
  · exact ⟨hvmix, gainReg_toNat_le _, gainReg_toNat_le _⟩
  · exact ⟨hvmix, hvl, hvr⟩

/-- A pan update attenuates at most one channel (R161). -/
theorem panLegal_setPan {s : State} (h : s.PanLegal) (t : Track) (q : Int) : (s.setPan t q).PanLegal := by
  intro t'
  rw [State.setPan_vl, State.setPan_vr, getElem_set_fin, getElem_set_fin]
  split
  · exact pan_attenuates_one q
  · exact h t'

/-- Multipliers at unity, as reset and ARM leave them (R130, R271). -/
theorem panLegal_of_unity {s : State} (hl : s.vl = Vector.replicate 4 32768) : s.PanLegal := by
  intro t
  simp [hl]

theorem gainsLegal_of_unity {s : State} (hl : s.vl = Vector.replicate 4 32768) (hr : s.vr = Vector.replicate 4 32768)
    (hv : ∀ t : Track, s.vmix[t].toNat ≤ 32768) (hlow : s.vmixLow.toNat ≤ 32768) : s.GainsLegal :=
  ⟨fun t => ⟨hv t, by simp [hl], by simp [hr]⟩, hlow⟩

theorem gainsLegal_keptByStep : KeptByStep fun s => s.GainsLegal ∧ s.PanLegal where
  toKeptByPlay := .of_voices_unread (fun _ _ _ _ _ _ h => h) (fun _ _ _ h => h) (fun _ _ _ _ _ h => h)
    (fun s t h => ⟨gainsLegal_recomputeGains h.1 t, by rw [State.recomputeGains_eq]; exact h.2⟩)
    (fun _ t q h => ⟨gainsLegal_setPan h.1 t q, panLegal_setPan h.2 t q⟩)
    (fun s c i h => by rwa [State.raiseError_eq])
  store s a d _ h := by rwa [State.storeTarget_frame]
  arm s _ := ⟨gainsLegal_of_unity rfl rfl (fun t => by simpa using volumeGain_toNat_le _) (volumeGainLow_toNat_le _),
    panLegal_of_unity rfl⟩
  disarm _ h := h
  clear _ h := h
  reset s _ := ⟨gainsLegal_of_unity rfl rfl (fun t => by simp [State.resetRegisters, State.resetWith]) (Nat.zero_le _),
    panLegal_of_unity rfl⟩
  redraw _ _ h := h

/-- Settles O49: gains come from the curve, which ends at unity, and a pan entry attenuates one side only. -/
theorem stepKeepsGainsLegal : Obligations.StepKeepsGainsLegal :=
  fun _ _ hg hp h => gainsLegal_keptByStep.step ⟨hg, hp⟩ h

/-! ## The error record (R23, R24, R241, R242) -/

theorem ErrorCause.code_ne_zero (c : ErrorCause) : c.code ≠ 0 := by cases c <;> decide

theorem State.ErrorLegal.raiseError {s : State} (h : s.ErrorLegal) (c : ErrorCause) (info : Word) :
    (s.raiseError c info).ErrorLegal := by
  rcases h with ⟨hempty, -, -⟩ | ⟨c₀, hcause, hflag⟩
  · obtain ⟨hcause, -⟩ := State.raiseError_fills_record hempty c info
    refine .inr ⟨c, hcause, ?_⟩
    rw [State.errorFlag_raiseError, decide_eq_true rfl, Bool.or_true]
  · obtain ⟨hkept, -⟩ := State.raiseError_keeps_record (hcause ▸ c₀.code_ne_zero : s.errCause ≠ 0) c info
    refine .inr ⟨c₀, hkept.trans hcause, ?_⟩
    rw [State.errorFlag_raiseError, hflag, Bool.true_or]

theorem errorLegal_keptByStep : KeptByStep State.ErrorLegal where
  toKeptByPlay := .of_voices_unread (fun _ _ _ _ _ _ h => h) (fun _ _ _ h => h) (fun _ _ _ _ _ h => h)
    (fun s t h => by rwa [State.recomputeGains_eq]) (fun _ _ _ h => h) (fun _ c info h => h.raiseError c info)
  store s a d _ h := by rwa [State.storeTarget_frame]
  arm _ h := h
  disarm _ h := h
  clear _ _ := .inl ⟨rfl, rfl, fun c => by cases c <;> rfl⟩
  reset _ _ := .inl ⟨rfl, rfl, fun c => by cases c <;> rfl⟩
  redraw _ _ h := h

/-- Settles O52: only raising an error fills the record, and only CLRERR and reset empty it, with the flags. -/
theorem stepKeepsErrorLegal : Obligations.StepKeepsErrorLegal := fun _ _ hs h => errorLegal_keptByStep.step hs h

/-! ## Voice slots (R40 to R42, R155 to R157, R180 to R182, R207) -/

/-- What MelodicLegal says of one slot. -/
def Voice.WithinNote (length : Word) (v : Voice) : Prop :=
  (0 < v.timer.toInt → v.timer.toInt ≤ length.toInt * 65536) ∧ v.fphase = 0

/-- What DrumLegal says of one slot. -/
def Voice.OnDrum (len : Nat) (v : Voice) : Prop :=
  (0 < v.timer.toInt → v.timer.toInt + v.fphase.toNat = len * 65536) ∧ v.phase = 0

theorem Voice.silent_withinNote (length : Word) : Voice.silent.WithinNote length := ⟨nofun, rfl⟩

theorem Voice.silent_onDrum (len : Nat) : Voice.silent.OnDrum len := ⟨nofun, rfl⟩

/-- A melodic trigger sets the timer to the whole note, which fits it (R156). -/
theorem State.triggerVoice_withinNote (s : State) (m : Melodic) (n : Slot) :
    (s.triggerVoice m.track n).WithinNote s.length[m] := by
  have hlo := BitVec.le_toInt (x := s.length[m])
  have hhi := BitVec.toInt_lt (x := s.length[m])
  have hfits : (BitVec.ofInt 48 (s.length[m].toInt * 65536)).toInt = s.length[m].toInt * 65536 :=
    toInt_ofInt_of_bounds (by decide) (by omega) (by omega)
  rw [State.triggerVoice, melodicOf_track]
  exact ⟨fun _ => hfits.le, rfl⟩

/-- The drum samples of legal parameters are short enough for the timer (R10, R157). -/
theorem State.drumLen_le {s : State} (hs : s.params.Valid) (n : Slot) : s.drumLen n ≤ 2147483647 := by
  obtain ⟨-, -, -, -, -, hshort, hmap, -⟩ := hs
  have hsample : s.drumSample n = s.params.drums[s.params.drumMap[n]]'(hmap n) := by
    unfold State.drumSample
    rw [List.getD_eq_getElem?_getD, List.getElem?_eq_getElem (hmap n), Option.getD_some]
  rw [State.drumLen, hsample]
  exact hshort _ (List.getElem_mem _)

/-- A percussion trigger sets the timer to the whole sample, at position 0 (R157). -/
theorem State.triggerVoice_onDrum {s : State} (hs : s.params.Valid) (n : Slot) :
    (s.triggerVoice percussion n).OnDrum (s.drumLen n) := by
  have hlen := State.drumLen_le hs n
  have hfits : (BitVec.ofNat 48 (s.drumLen n * 65536)).toInt = s.drumLen n * 65536 := by
    rw [← BitVec.ofInt_natCast, toInt_ofInt_of_bounds (by decide)] <;> push_cast <;> omega
  rw [State.triggerVoice, melodicOf_percussion]
  exact ⟨fun _ => by simp [hfits], rfl⟩

/-- A timer step takes lifetime from a slot and leaves its position. -/
theorem timerStep_withinNote {length : Word} {v : Voice} (h : v.WithinNote length) (tinc : Word) :
    (timerStep tinc v).1.WithinNote length := by
  rcases timerStep_cases tinc v with ⟨-, hskip⟩ | ⟨hlive, -, hfphase, htimer, -⟩
  · rw [hskip]; exact h
  · obtain ⟨hbound, hzero⟩ := h
    have := hbound hlive
    exact ⟨fun _ => by omega, hfphase.trans hzero⟩

theorem State.slotStep_withinNote (s : State) (m : Melodic) (n : Slot) {length : Word}
    (h : (s.voice m.track n).WithinNote length) : (s.slotStep m.track n).1.WithinNote length := by
  have hstep := timerStep_withinNote h s.tinc
  cases hlive : (timerStep s.tinc (s.voice m.track n)).2 with
  | false => rw [State.slotStep_skip hlive]; exact hstep
  | true => rw [State.slotStep_melodic hlive]; exact hstep

/-- In a LIVE percussion slot the timer loses what the position gains, which does not wrap (R180, R200, R207). -/
theorem State.slotStep_onDrum {s : State} (hs : s.params.Valid) (n : Slot)
    (h : (s.voice percussion n).OnDrum (s.drumLen n)) : (s.slotStep percussion n).1.OnDrum (s.drumLen n) := by
  rcases timerStep_cases s.tinc (s.voice percussion n) with ⟨-, hskip⟩ | ⟨hpos, hphase, hfphase, htimer, hlive⟩
  · rw [State.slotStep_skip (by rw [hskip]), hskip]
    exact h
  · obtain ⟨hsum, hzero⟩ := h
    have hsum := hsum hpos
    have hlen := State.drumLen_le hs n
    by_cases hleft : 0 < (s.voice percussion n).timer.toInt - s.tinc.toNat
    · rw [State.slotStep_percussion (by rw [hlive, decide_eq_true hleft])]
      refine ⟨fun _ => ?_, hphase.trans hzero⟩
      rw [State.percussionVoice_timer, State.percussionVoice_fphase, hfphase, htimer, BitVec.toNat_ofNat,
        Nat.mod_eq_of_lt (by omega)]
      omega
    · rw [State.slotStep_skip (by rw [hlive, decide_eq_false hleft])]
      exact ⟨fun hlive => absurd (htimer ▸ hlive) hleft, hphase.trans hzero⟩

/-- The parameters are legal, and so is every slot while the block plays. -/
def State.VoicesLegal (s : State) : Prop := s.params.Valid ∧ s.MelodicLegal ∧ s.DrumLegal

/-- An operation that changes slots only keeps the invariant if it keeps what the invariant says of every slot. -/
theorem State.VoicesLegal.of_slots {s u : State} (h : s.VoicesLegal) (hparams : u.params = s.params)
    (hready : u.ready = s.ready) (hlength : u.length = s.length)
    (hmelodic : ∀ (m : Melodic) n, (s.voice m.track n).WithinNote s.length[m] →
      (u.voice m.track n).WithinNote s.length[m])
    (hdrum : ∀ n, (s.voice percussion n).OnDrum (s.drumLen n) → (u.voice percussion n).OnDrum (s.drumLen n)) :
    u.VoicesLegal := by
  obtain ⟨hvalid, hm, hd⟩ := h
  have hlen : ∀ n, u.drumLen n = s.drumLen n := fun n => by simp only [State.drumLen, State.drumSample, hparams]
  refine ⟨hparams ▸ hvalid, fun hr m n => ?_, fun hr n => ?_⟩
  · rw [hlength]
    exact hmelodic m n (hm (hready ▸ hr) m n)
  · rw [hlen]
    exact hdrum n (hd (hready ▸ hr) n)

/-- In configuration mode the invariant is about the parameters alone. -/
theorem State.VoicesLegal.of_not_ready {s : State} (hs : s.params.Valid) (hr : s.ready = false) : s.VoicesLegal :=
  ⟨hs, fun h => by simp [hr] at h, fun h => by simp [hr] at h⟩

theorem State.VoicesLegal.applyTriggers {s : State} (h : s.VoicesLegal) (t : Track) (trig : BitVec 24) :
    (s.applyTriggers t trig).VoicesLegal := by
  have hframe := s.applyTriggers_frame t trig
  refine h.of_slots (by rw [hframe]) (by rw [hframe]) (by rw [hframe]) (fun m n hv => ?_) (fun n hv => ?_) <;>
    rw [State.applyTriggers_voice] <;> split_ifs with ht
  · obtain ⟨rfl, -⟩ := ht
    exact s.triggerVoice_withinNote m n
  · exact hv
  · obtain ⟨rfl, -⟩ := ht
    exact State.triggerVoice_onDrum h.1 n
  · exact hv

theorem State.VoicesLegal.renderVoices {s : State} (h : s.VoicesLegal) : s.renderVoices.VoicesLegal := by
  have hframe := s.renderVoices_frame
  refine h.of_slots (by rw [hframe]) (by rw [hframe]) (by rw [hframe]) (fun m n hv => ?_) (fun n hv => ?_) <;>
    rw [State.renderVoices_voice]
  · exact s.slotStep_withinNote m n hv
  · exact State.slotStep_onDrum h.1 n hv

/-- ARM silences every slot (R130). -/
theorem State.armInit_voice (s : State) (t : Track) (n : Slot) : s.armInit.voice t n = Voice.silent := by
  simp [State.voice]

theorem voicesLegal_keptByStep : KeptByStep State.VoicesLegal where
  timeline _ _ _ h := h
  mix _ _ _ _ _ h := h
  outside _ _ _ _ _ h := h
  triggers _ t trig h := h.applyTriggers t trig
  slots _ h := h.renderVoices
  gains s t h := by rwa [State.recomputeGains_eq]
  pan _ _ _ h := h
  raise s c info h := by rwa [State.raiseError_eq]
  store s a d hr h := by
    rw [State.storeTarget_frame]
    exact .of_not_ready h.1 hr
  arm s h := ⟨h.1, fun _ m n => s.armInit_voice m.track n ▸ Voice.silent_withinNote _,
    fun _ n => s.armInit_voice percussion n ▸ Voice.silent_onDrum _⟩
  disarm _ h := .of_not_ready h.1 rfl
  clear _ h := h
  reset _ h := .of_not_ready h.1 rfl
  redraw _ _ h := h

/-- Settles O51: a trigger starts a slot with its whole note, and a frame moves what the timer loses to the position. -/
theorem stepKeepsVoicesLegal : Obligations.StepKeepsVoicesLegal :=
  fun _ _ hp hm hd h => voicesLegal_keptByStep.step ⟨hp, hm, hd⟩ h

/-! ## What single instructions reach (R22, R23, R49, R52) -/

/-- Settles O59: but for CLRERR, an instruction reaches the flags and the record only by raising an error. -/
theorem errorsAreSticky : Obligations.ErrorsAreSticky := by
  intro i s u h hi hi'
  have hplay : KeptByPlay (ErrorsKept s) := .of_voices_unread (fun _ _ _ _ _ _ h => h) (fun _ _ _ h => h)
    (fun _ _ _ _ _ h => h) (fun v t h => by rwa [State.recomputeGains_eq]) (fun _ _ _ h => h)
    (fun _ c info h => h.raiseError c info)
  rcases hplay.exec_cases (ErrorsKept.refl s) h with hu | ⟨a, d, -, -, rfl⟩ | ⟨-, rfl⟩ | ⟨-, rfl⟩ | ⟨rfl | rfl, -⟩
  · exact hu
  · rw [State.storeTarget_frame]; exact ErrorsKept.refl s
  · exact ErrorsKept.refl s
  · exact ErrorsKept.refl s
  · exact absurd rfl hi
  · exact absurd rfl hi'

/-- Settles O55: but for ARM, every instruction keeps READY = 0. -/
theorem onlyArmSetsReady : Obligations.OnlyArmSetsReady := by
  intro i s u h hs hu
  have hplay : KeptByPlay fun v => v.ready = false := .of_voices_unread (fun _ _ _ _ _ _ h => h) (fun _ _ _ h => h)
    (fun _ _ _ _ _ h => h) (fun v t h => by rwa [State.recomputeGains_ready]) (fun _ _ _ h => h)
    (fun v c info h => by rwa [State.raiseError_ready])
  rcases hplay.exec_cases hs h with hkept | ⟨a, d, -, -, rfl⟩ | ⟨harm, -⟩ | ⟨-, rfl⟩ | ⟨-, rfl⟩
  · exact absurd hu (by simp [hkept])
  · rw [State.storeTarget_frame] at hu; exact absurd hu (by simp [hs])
  · exact harm
  · exact absurd hu nofun
  · exact absurd hu (by simp [hs])

theorem SamePlayState.refl (s : State) : SamePlayState s s :=
  ⟨rfl, rfl, rfl, rfl, rfl, rfl, rfl, rfl, rfl, rfl, rfl, rfl, rfl⟩

/-- Settles O57: a read, a refused access and a store each leave the play state, READY and the frame port. -/
theorem busAccessesLeavePlayState : Obligations.BusAccessesLeavePlayState := by
  rintro i s u (⟨a, rfl⟩ | ⟨a, d, rfl, ha⟩) h
  · rcases execRd_cases h with ⟨-, rfl⟩ | ⟨-, rfl⟩
    · rw [State.raiseError_eq]; exact ⟨SamePlayState.refl s, rfl, rfl⟩
    · exact ⟨SamePlayState.refl s, rfl, rfl⟩
  · rcases execWr_cases h with ⟨-, rfl⟩ | ⟨hcmd, -⟩ | ⟨-, -, rfl⟩ | ⟨-, -, rfl⟩
    · rw [State.raiseError_eq]; exact ⟨SamePlayState.refl s, rfl, rfl⟩
    · exact absurd (State.target_command hcmd) ha
    · rw [State.raiseError_eq]; exact ⟨SamePlayState.refl s, rfl, rfl⟩
    · rw [State.storeTarget_frame]; exact ⟨SamePlayState.refl s, rfl, rfl⟩

/-- An instruction changes no byte of RAM but those of the word that a WR addresses. -/
theorem exec_ramByte {i : Instr} {w v : State} (h : exec i w = .next v) {x : Nat}
    (hx : ∀ b d, i = .wr b d → x < b.toNat ∨ b.toNat + 4 ≤ x) : v.ramByte x = w.ramByte x := by
  have hplay : KeptByPlay fun v => v.ramByte x = w.ramByte x := .of_voices_unread (fun _ _ _ _ _ _ h => h)
    (fun _ _ _ h => h) (fun _ _ _ _ _ h => h) (fun v t h => by rwa [State.recomputeGains_eq]) (fun _ _ _ h => h)
    (fun v c info h => by rwa [State.raiseError_eq])
  rcases hplay.exec_cases rfl h with hv | ⟨a, d, rfl, -, rfl⟩ | ⟨-, rfl⟩ | ⟨-, rfl⟩ | ⟨-, rfl⟩
  · exact hv
  · exact State.ramByte_storeTarget (hx a d rfl) d
  · rfl
  · rfl
  · rfl

theorem decodeCommand_ne_wr (c d : Word) (b : Addr) : decodeCommand c ≠ .wr b d := by
  unfold decodeCommand
  split_ifs <;> nofun

/-- Only a bus write decodes to a WR, and it is the one to its address. -/
theorem eq_write_of_decodeBus {x : BusTxn} {b : Addr} {d : Word} (h : decodeBus x = .wr b d) : x = .write b d := by
  cases x with
  | read a => nomatch h
  | write a c =>
    simp only [decodeBus] at h
    split_ifs at h
    · exact absurd h (decodeCommand_ne_wr c d b)
    · cases h; rfl

/-- A step whose event is no power-on changes no byte of RAM but those of the word its bus write addresses. -/
theorem step_ramByte {w v : State} (h : step w = .next v) (hpower : w.inbox.head? ≠ some .powerOn) {x : Nat}
    (hx : ∀ b d, w.inbox.head? = some (.bus (.write b d)) → x < b.toNat ∨ b.toNat + 4 ≤ x) :
    v.ramByte x = w.ramByte x := by
  rcases step_cases h with ⟨-, rfl⟩ | ⟨ev, rest, hev, ⟨y, -, -, rfl⟩ | ⟨y, rfl, -, hexec⟩ | ⟨level, -, rfl⟩ | ⟨rfl, -⟩⟩
  · rfl
  · cases y <;> rfl
  · refine exec_ramByte hexec fun b d hwr => hx b d ?_
    rw [hev, List.head?_cons, eq_write_of_decodeBus hwr]
  · cases level <;> rfl
  · exact absurd (by rw [hev, List.head?_cons]) hpower

theorem step_of_inbox_powerOn {s : State} {rest : List HostEvent} (h : s.inbox = .powerOn :: rest) :
    step s = .next ({ s.clearPorts with inbox := rest } : State).cyclePower := by
  unfold step fetch
  rw [h]

/-- Settles O8: a power-on lists no cell as written, and only a WR stores, at its own address. -/
theorem powerOnRedrawsRam : Obligations.PowerOnRedrawsRam := by
  refine ⟨fun s rest h => ⟨_, step_of_inbox_powerOn h, rfl, rfl, rfl, fun a => rfl⟩, fun i w => ?_, fun w hpower => ?_⟩
  · obtain ⟨v, hv⟩ := exec_next i w
    exact ⟨v, hv, fun x hx => exec_ramByte hv hx⟩
  · obtain ⟨v, hv⟩ := step_next w
    exact ⟨v, hv, fun x hx => step_ramByte hv hpower hx⟩

end Sys2Proof.Machine

/-! The memory family (spec/20_memory.md): what a read of each row of the address map returns (R62, R68 to R74), which
accesses the map refuses (R65, R73), that a lock address reads back what was stored (R76, R126), that play locks the
score (R78), and what reaches the frame port (R75). -/

namespace Sys2Proof.Machine

/-! ## Reads on the map (R62, R68 to R74) -/

/-- A read of a word the map lists returns it and changes nothing (R74, R120). -/
theorem exec_rd_of_target {s : State} {a : Addr} (x : Target) {v : Word} (ht : s.target a = x)
    (hx : x.access ≠ .absent) (hv : s.readTarget x = v) : exec (.rd a) s = .next { s with readData := some v } := by
  subst ht hv
  obtain ⟨u, h⟩ := exec_next (.rd a) s
  rcases execRd_cases h with ⟨habsent, -⟩ | ⟨-, rfl⟩
  · exact absurd habsent hx
  · exact h

/-- A field of a register, as a number: shifting out what is below it. -/
theorem extractLsb'_eq_ofNat_div {w : Nat} (x : BitVec w) (k n : Nat) :
    x.extractLsb' k n = BitVec.ofNat n (x.toNat / 2 ^ k) := by
  rw [← Nat.shiftRight_eq_div_pow]
  rfl

/-- The frame output register as a number: right above left (R68). -/
theorem append_eq_ofNat (r l : BitVec 16) : r ++ l = BitVec.ofNat 32 (r.toNat * 65536 + l.toNat) := by
  have hr := r.isLt
  have hl := l.isLt
  apply BitVec.eq_of_toNat_eq
  rw [BitVec.toNat_append, ← Nat.shiftLeft_add_eq_or_of_lt hl, Nat.shiftLeft_eq, BitVec.toNat_ofNat]
  omega

theorem flagBit_getLsbD (b : Bool) {k : Nat} (hk : k < 32) (i : Nat) :
    (flagBit b k).getLsbD i = (b && decide (i = k)) := by
  cases b
  · simp [flagBit]
  · rw [flagBit, if_pos rfl, BitVec.getLsbD_ofNat, Nat.testBit_two_pow, Bool.true_and, Bool.and_comm]
    rcases eq_or_ne i k with rfl | hne
    · simp [hk]
    · simp [hne, hne.symm]

/-- The bits of STATUS (R68): READY, then the flags by cause code. -/
theorem State.statusWord_getLsbD (s : State) (i : Nat) :
    s.statusWord.getLsbD i =
      (s.ready && decide (i = 0) || s.errAddr && decide (i = 1) || s.errLock && decide (i = 2) ||
        s.errCmd && decide (i = 3) || s.errCfg && decide (i = 4) || s.errPan && decide (i = 5)) := by
  simp [State.statusWord, flagBit_getLsbD]

/-! OCTAVE and LENGTH are the registers of a melodic track that the percussion track has not (R69). -/

theorem State.target_octave (s : State) (m : Melodic) :
    s.target (BitVec.ofNat 24 (0x100 + 0x20 * m.val)) = .octave m := by
  refine (s.target_track m.track 0x00 (by decide) (by decide)).trans ?_
  simp only [trackTarget, melodicOf_track]

theorem State.target_length (s : State) (m : Melodic) :
    s.target (BitVec.ofNat 24 (0x104 + 0x20 * m.val)) = .length m := by
  have haddr : 0x104 + 0x20 * m.val = 0x100 + 0x20 * m.track.val + 0x04 := by
    simp only [Melodic.track, Fin.val_castSucc]; omega
  rw [haddr, s.target_track m.track 0x04 (by decide) (by decide)]
  simp only [trackTarget, melodicOf_track]

/-- A read of a register that every track has (R69). -/
theorem exec_rd_track (s : State) (t : Track) (off : Nat) (x : Target) {v : Word} (hoff : off < 0x20) (h4 : off % 4 = 0)
    (ht : trackTarget t off = x) (hx : x.access ≠ .absent) (hv : s.readTarget x = v) :
    exec (.rd (BitVec.ofNat 24 (0x100 + off + 0x20 * t.val))) s = .next { s with readData := some v } := by
  rw [Nat.add_right_comm]
  exact exec_rd_of_target x ((s.target_track t off hoff h4).trans ht) hx hv

/-- Settles O10: one row of the map a line, with the target its address selects. -/
theorem readRegisters : Obligations.ReadRegisters := by
  intro s
  refine ⟨?_, ⟨s.statusWord, exec_rd_of_target .status rfl nofun rfl, ?_⟩, fun m => ?_, fun t => ?_⟩
  · simp only [List.forall_mem_cons, List.not_mem_nil, false_imp_iff, implies_true, and_true]
    exact ⟨exec_rd_of_target .id rfl nofun rfl, exec_rd_of_target .cmd rfl nofun rfl,
      exec_rd_of_target .sampleRate rfl nofun rfl, exec_rd_of_target .tickMs rfl nofun rfl,
      exec_rd_of_target .repeatTick rfl nofun rfl, exec_rd_of_target .endTick rfl nofun rfl,
      exec_rd_of_target .recordCount rfl nofun rfl, exec_rd_of_target .pos rfl nofun rfl,
      exec_rd_of_target .tinc rfl nofun rfl, exec_rd_of_target .sptLo rfl nofun rfl,
      exec_rd_of_target .sptHi rfl nofun (extractLsb'_eq_ofNat_div s.spt 32 32),
      exec_rd_of_target .cdLo rfl nofun rfl,
      exec_rd_of_target .cdHi rfl nofun (extractLsb'_eq_ofNat_div s.cd 32 32),
      exec_rd_of_target .outFrame rfl nofun (append_eq_ofNat s.outR s.outL),
      exec_rd_of_target .errCause rfl nofun (BitVec.ofNat_toNat 32 s.errCause).symm,
      exec_rd_of_target .errInfo rfl nofun rfl, exec_rd_of_target .noteDepth rfl nofun rfl,
      exec_rd_of_target .vmixLow (s.target_track percussion 0x10 (by decide) rfl) nofun
        (BitVec.ofNat_toNat 32 s.vmixLow).symm⟩
  · simp only [State.statusWord_getLsbD]
    refine ⟨by simp, by simp, by simp, by simp, by simp, by simp, fun k hk => ?_⟩
    obtain ⟨j, rfl⟩ := Nat.exists_eq_add_of_le' hk
    simp
  · simp only [List.forall_mem_cons, List.not_mem_nil, false_imp_iff, implies_true, and_true]
    exact ⟨exec_rd_of_target _ (s.target_octave m) nofun (BitVec.ofNat_toNat 32 s.octave[m]).symm,
      exec_rd_of_target _ (s.target_length m) nofun rfl⟩
  · simp only [List.forall_mem_cons, List.not_mem_nil, false_imp_iff, implies_true, and_true]
    exact ⟨exec_rd_track s t 0x08 (.volume t) (by decide) rfl rfl nofun rfl,
      exec_rd_track s t 0x0C (.vmix t) (by decide) rfl rfl nofun (BitVec.ofNat_toNat 32 s.vmix[t]).symm,
      exec_rd_track s t 0x14 (.volLeft t) (by decide) rfl rfl nofun (BitVec.ofNat_toNat 32 s.vl[t]).symm,
      exec_rd_track s t 0x18 (.volRight t) (by decide) rfl rfl nofun (BitVec.ofNat_toNat 32 s.vr[t]).symm⟩

/-- Settles O11: each window selects its word, and a word of RAM is its four bytes. -/
theorem readMemoryWindows : Obligations.ReadMemoryWindows := by
  intro s hd
  refine ⟨fun m j hj => ⟨_, exec_rd_of_target _ (s.target_wave m j hj) nofun rfl, fun k hk => ?_⟩,
    fun m j hj => ⟨_, exec_rd_of_target _ (s.target_env m j hj) nofun rfl, fun k hk => ?_⟩,
    fun t j hj => exec_rd_of_target _ (s.target_note t j hd hj) nofun rfl⟩
  · exact (s.ramWord_extract (waveAddr m (4 * j)) k hk).trans (congrArg s.ramByte (Nat.add_assoc _ _ _))
  · exact (s.ramWord_extract (envAddr m (4 * j)) k hk).trans (congrArg s.ramByte (Nat.add_assoc _ _ _))

/-! ## The voice window (R72) -/

/-- Where a word stands in its slot's block (R72). -/
def VoiceField.offset : VoiceField → Nat
  | .timerLo => 0x00
  | .timerHi => 0x04
  | .phase => 0x08
  | .fphaseLo => 0x0C
  | .fphaseHi => 0x10

theorem voiceTarget_offset (t : Track) (n : Slot) (f : VoiceField) :
    voiceTarget t (0x20 * n.val + f.offset) = .voice t n f := by
  have hf : f.offset < 0x20 := by cases f <;> decide
  have hslot : (0x20 * n.val + f.offset) / 0x20 = n.val := by omega
  have hword : (0x20 * n.val + f.offset) % 0x20 = f.offset := by omega
  simp only [voiceTarget, hslot, hword, n.isLt, dite_true]
  cases f <;> rfl

theorem exec_rd_voice (s : State) (t : Track) (n : Slot) (f : VoiceField) {v : Word} (hv : (s.voice t n).field f = v) :
    exec (.rd (BitVec.ofNat 24 (0x10000 + 0x400 * t.val + 0x20 * n.val + f.offset))) s =
      .next { s with readData := some v } := by
  have hblock : f.offset < 0x20 := by cases f <;> decide
  have haligned : f.offset % 4 = 0 := by cases f <;> rfl
  have ht := (s.target_voice t n f.offset hblock haligned).trans (voiceTarget_offset t n f)
  exact exec_rd_of_target _ ht nofun hv

/-- The low word of a timer: the conversion to 32 bits drops the rest (R72). -/
theorem timerLo_eq_ofInt (x : BitVec 48) : x.extractLsb' 0 32 = BitVec.ofInt 32 x.toInt := by
  have hx := x.isLt
  rw [extractLsb'_eq_ofNat_div]
  apply BitVec.eq_of_toNat_eq
  rw [BitVec.toNat_ofNat, BitVec.toNat_ofInt, BitVec.toInt_eq_toNat_cond]
  split <;> omega

/-- The high word of a timer: its top half with the sign kept, which is division rounding down (R72). -/
theorem timerHi_eq_ofInt (x : BitVec 48) :
    (x.extractLsb' 32 16).signExtend 32 = BitVec.ofInt 32 (x.toInt / 2 ^ 32) := by
  have hx := x.isLt
  have htop : (x.extractLsb' 32 16).toInt = x.toInt / 2 ^ 32 := by
    rw [extractLsb'_eq_ofNat_div, BitVec.toInt_eq_toNat_cond, BitVec.toInt_eq_toNat_cond, BitVec.toNat_ofNat]
    split <;> split <;> omega
  rw [BitVec.signExtend, htop]

/-- The high word of a position: its top half above zeros (R72). -/
theorem fphaseHi_eq_ofNat (x : BitVec 48) :
    (x.extractLsb' 32 16).setWidth 32 = BitVec.ofNat 32 (x.toNat / 2 ^ 32) := by
  have hx := x.isLt
  rw [extractLsb'_eq_ofNat_div]
  apply BitVec.eq_of_toNat_eq
  rw [BitVec.toNat_setWidth, BitVec.toNat_ofNat, BitVec.toNat_ofNat]
  omega

/-- Settles O12: the five words of a block, the halves of the 48-bit values as numbers. -/
theorem readVoiceWindow : Obligations.ReadVoiceWindow := by
  intro s t n
  simp only [List.forall_mem_cons, List.not_mem_nil, false_imp_iff, implies_true, and_true]
  exact ⟨exec_rd_voice s t n .timerLo (timerLo_eq_ofInt _), exec_rd_voice s t n .timerHi (timerHi_eq_ofInt _),
    exec_rd_voice s t n .phase rfl, exec_rd_voice s t n .fphaseLo rfl,
    exec_rd_voice s t n .fphaseHi (fphaseHi_eq_ofNat _)⟩

/-! ## Refused accesses (R65, R73) -/

/-- Settles O13: the map gives every mapped address a target and no other address one. -/
theorem readOutsideTheMap : Obligations.ReadOutsideTheMap := by
  intro s a hd
  obtain ⟨-, -, -, habsent⟩ := s.target_access a hd
  obtain ⟨u, h⟩ := exec_next (.rd a) s
  refine ⟨fun hmap => ?_, fun hmap => ⟨_, exec_rd_of_target _ rfl (fun hx => habsent.1 hx hmap) rfl⟩⟩
  rcases execRd_cases h with ⟨-, rfl⟩ | ⟨hx, -⟩
  · exact h
  · exact absurd (habsent.2 hmap) hx

/-- Settles O14: an address off the map has no target, and one of the RO rows a read-only one. -/
theorem writeRefused : Obligations.WriteRefused := by
  intro s a d hd ha
  obtain ⟨-, hreadOnly, -, habsent⟩ := s.target_access a hd
  have hx : (s.target a).access = .absent ∨ (s.target a).access = .readOnly := ha.imp habsent.2 hreadOnly.2
  obtain ⟨u, h⟩ := exec_next (.wr a d) s
  rcases execWr_cases h with ⟨-, rfl⟩ | ⟨hx', -⟩ | ⟨hx', -⟩ | ⟨hx', -⟩
  · exact h
  all_goals rw [hx'] at hx; exact absurd hx (by decide)

/-! ## Read after write (R76, R124, R126) -/

/-- What a lock target holds of a word stored to it: OCTAVE its low 8 bits (R124), any other target all of it. -/
def Target.kept : Target → Word → Word
  | .octave _, d => d &&& 0xFF
  | _, d => d

theorem setWidth_low_byte (d : Word) : (d.extractLsb' 0 8).setWidth 32 = d &&& 0xFF := by
  apply BitVec.eq_of_toNat_eq
  rw [extractLsb'_eq_ofNat_div, BitVec.toNat_setWidth, BitVec.toNat_ofNat, BitVec.toNat_and]
  change _ = d.toNat &&& (2 ^ 8 - 1)
  rw [Nat.and_two_pow_sub_one_eq_mod]
  omega

theorem State.readTarget_storeTarget {s : State} {x : Target} (hx : x.access = .locked) (d : Word) :
    (s.storeTarget x d).readTarget x = x.kept d := by
  cases x with
  | octave m =>
    simp only [State.storeTarget, State.readTarget, Target.kept, getElem_set_fin, if_true]
    exact setWidth_low_byte d
  | length m => simp only [State.storeTarget, State.readTarget, Target.kept, getElem_set_fin, if_true]
  | volume t => simp only [State.storeTarget, State.readTarget, Target.kept, getElem_set_fin, if_true]
  | wave m j => exact s.ramWord_writeRamWord_same _ d
  | env m j => exact s.ramWord_writeRamWord_same _ d
  | note t j => exact s.ramWord_writeRamWord_same _ d
  | sampleRate | tickMs | repeatTick | endTick | recordCount => rfl
  | _ => exact absurd hx nofun

/-- Only the first register of a melodic track is its OCTAVE (R69). -/
theorem trackTarget_eq_octave {t : Track} {off : Nat} {m : Melodic} (h : trackTarget t off = .octave m) :
    off = 0 ∧ t = m.track := by
  unfold trackTarget at h
  split at h
  · rcases melodicOf_cases t with ⟨m', rfl, hm⟩ | ⟨-, hm⟩ <;> rw [hm] at h <;> cases h
    exact ⟨rfl, rfl⟩
  all_goals (try split at h) <;> cases h

theorem State.addr_of_target_octave {s : State} {a : Addr} {m : Melodic} (h : s.target a = .octave m) :
    a.toNat = 0x100 + 0x20 * m.val := by
  unfold State.target addressMap at h
  split_ifs at h
  · unfold controlTarget at h; split at h <;> cases h
  · obtain ⟨hoff, ht⟩ := trackTarget_eq_octave h
    have hval := congrArg Fin.val ht
    simp only [Fin.ofNat, Melodic.track, Fin.val_castSucc] at hval
    omega
  · unfold voiceTarget at h; split at h <;> (try split at h) <;> cases h

/-- Which lock addresses hold only a byte (R69, R124). -/
theorem State.kept_target (s : State) (a : Addr) (d : Word) :
    (s.target a).kept d = if a = 0x100 ∨ a = 0x120 ∨ a = 0x140 then d &&& 0xFF else d := by
  by_cases hoct : ∃ m, s.target a = .octave m
  · obtain ⟨m, hm⟩ := hoct
    have hnat := State.addr_of_target_octave hm
    have haddr : a = 0x100 ∨ a = 0x120 ∨ a = 0x140 := by bv_omega
    rw [hm, if_pos haddr]
    rfl
  · have haddr : ¬ (a = 0x100 ∨ a = 0x120 ∨ a = 0x140) := by
      rintro (rfl | rfl | rfl)
      · exact hoct ⟨0, s.target_octave 0⟩
      · exact hoct ⟨1, s.target_octave 1⟩
      · exact hoct ⟨2, s.target_octave 2⟩
    rw [if_neg haddr]
    cases hx : s.target a with
    | octave m => exact absurd ⟨m, hx⟩ hoct
    | _ => rfl

theorem State.storeTarget_target (s : State) (x : Target) (d : Word) (a : Addr) :
    (s.storeTarget x d).target a = s.target a := by
  rw [State.storeTarget_frame]
  rfl

/-- Settles O20: a store leaves the map, and its target holds the word, or OCTAVE its low byte. -/
theorem readAfterWrite : Obligations.ReadAfterWrite := by
  intro s a d hr hd ha
  obtain ⟨hlocked, -⟩ := s.target_access a hd
  have hx := hlocked.2 ha
  have hwrite : exec (.wr a d) s = .next (s.storeTarget (s.target a) d) := by
    simp [exec, execWr, hx, hr]
  refine ⟨_, _, hwrite, exec_rd_of_target (s.target a) (s.storeTarget_target _ d a) (by simp [hx])
    (State.readTarget_storeTarget hx d), ?_⟩
  rw [State.kept_target]

/-! ## What play locks (R78, R122, R229) -/

theorem SameScore.refl (s : State) : SameScore s s :=
  ⟨rfl, rfl, rfl, rfl, rfl, rfl, rfl, rfl, fun _ => rfl⟩

/-- Settles O56: only a store reaches the score, and no store happens while READY = 1. -/
theorem playingLocksTheScore : Obligations.PlayingLocksTheScore := by
  intro i s u hs h
  have hplay : KeptByPlay (SameScore s) := .of_voices_unread (fun _ _ _ _ _ _ h => h) (fun _ _ _ h => h)
    (fun _ _ _ _ _ h => h) (fun v t h => by rwa [State.recomputeGains_eq]) (fun _ _ _ h => h)
    (fun v c info h => by rwa [State.raiseError_eq])
  rcases hplay.exec_cases (SameScore.refl s) h with hu | ⟨a, d, -, hr, -⟩ | ⟨-, rfl⟩ | ⟨-, rfl⟩ | ⟨-, rfl⟩
  · exact hu
  · exact absurd hr (by simp [hs])
  · exact SameScore.refl s
  · exact SameScore.refl s
  · exact SameScore.refl s

/-! ## The frame port (R75, R225) -/

/-- The tick check of a frame does not reach the port (R150). -/
theorem State.tickCheck_framePort (s : State) : s.tickCheck.framePort = s.framePort := by
  rcases s.tickCheck_cases with ⟨-, h⟩ | ⟨-, h⟩ <;> rw [h]
  exact s.playEvents_frame.framePort

/-- FRAME strobes once, with the latched frame, in both modes (R133, R134, R225). -/
theorem execFrame_framePort {s u : State} (h : execFrame s = .next u) :
    u.framePort = s.framePort ++ [⟨u.outL, u.outR⟩] := by
  rcases execFrame_cases h with ⟨-, rfl⟩ | ⟨-, rfl⟩
  · obtain ⟨vs, l, r, hframe, -⟩ := s.renderFrame_spec
    rw [hframe, s.tickCheck_framePort]
  · rfl

theorem execArm_framePort {s u : State} (h : execArm s = .next u) : u.framePort = s.framePort := by
  rcases execArm_cases h with ⟨-, rfl⟩ | ⟨-, rfl⟩
  · rfl
  · exact State.raiseError_framePort _ _ _

/-- A command other than FRAME does not reach the port (R127). -/
theorem executeCommand_framePort {s u : State} {d : Word} (h : executeCommand d s = .next u) (hd : d ≠ 3) :
    u.framePort = s.framePort := by
  rcases executeCommand_cases h with ⟨-, rfl⟩ | ⟨-, h⟩ | ⟨-, rfl⟩ | ⟨hframe, -⟩ | ⟨-, rfl⟩ | ⟨-, rfl⟩
  · rfl
  · exact execArm_framePort h
  · rfl
  · exact absurd hframe hd
  · rfl
  · exact State.raiseError_framePort _ _ _

theorem State.eventCommon_framePort (s : State) (t : Track) (trig : BitVec 24) :
    (s.eventCommon t trig).framePort = s.framePort := by
  rw [State.eventCommon_frame]

/-- An instruction other than FRAME does not reach the port (R75). -/
theorem exec_framePort {i : Instr} {s u : State} (h : exec i s = .next u) (hi : i ≠ .frame) (hi' : i ≠ .wr 0x04 3) :
    u.framePort = s.framePort := by
  cases i with
  | rd a =>
    obtain ⟨-, -, hport⟩ := busAccessesLeavePlayState _ s u (.inl ⟨a, rfl⟩) h
    exact hport
  | wr a d =>
    by_cases ha : a = 0x04
    · subst ha
      exact executeCommand_framePort h fun hd => hi' (hd ▸ rfl)
    · obtain ⟨-, -, hport⟩ := busAccessesLeavePlayState _ s u (.inr ⟨a, d, rfl, ha⟩) h
      exact hport
  | nop => cases h; rfl
  | arm => exact execArm_framePort h
  | disarm => cases h; rfl
  | frame => exact absurd rfl hi
  | clrerr => cases h; rfl
  | cmdRsvd w => cases h; exact State.raiseError_framePort _ _ _
  | ev t trig => cases h; exact s.eventCommon_framePort t trig
  | evPan t trig p => cases h; exact s.eventCommon_framePort t trig
  | evRsvd t trig p => cases h; exact (State.raiseError_framePort _ _ _).trans (s.eventCommon_framePort t trig)

/-- Settles O58: FRAME, as a command or as its write to CMD, and every other instruction. -/
theorem onlyFrameStrobes : Obligations.OnlyFrameStrobes := by
  intro i s u h
  refine ⟨?_, exec_framePort h⟩
  rintro (rfl | rfl) <;> exact execFrame_framePort h

end Sys2Proof.Machine

/-! The encoding family (spec/30_encoding.md): the decoder and the encoder are inverse to each other (R91 to R99, R107),
what EV and EV.PAN do (R96, R97, R153 to R161), one frame of the render sink (R100, R139), and the load of a truncated
image (R101, R138). -/

namespace Sys2Proof

/-! ## Command words (R93, R94) -/

/-- The reserved command words are those above 4. -/
theorem decodeCommand_of_reserved {w : Word} (h : 4 < w.toNat) : decodeCommand w = .cmdRsvd w := by
  have hne : ∀ c : Word, c.toNat ≤ 4 → w ≠ c := by rintro c hc rfl; omega
  simp only [decodeCommand, hne 0 (by decide), hne 1 (by decide), hne 2 (by decide), hne 3 (by decide),
    hne 4 (by decide), if_false]

/-- A command word is the word of the command it decodes to. -/
theorem encode_decodeCommand (d : Word) : encode (decodeCommand d) = .bus (.write cmdAddr d) := by
  unfold decodeCommand
  split_ifs <;> subst_vars <;> rfl

/-! ## Event words (R95 to R99) -/

theorem decodeEvent_of_pan_zero {t : Track} {w : Word} (h : eventPan w = 0) : decodeEvent t w = .ev t (eventTrig w) :=
  if_pos h

theorem decodeEvent_of_pan_le_seven {t : Track} {w : Word} (h : 1 ≤ (eventPan w).toNat)
    (h' : (eventPan w).toNat ≤ 7) : decodeEvent t w = .evPan t (eventTrig w) (eventPan w) := by
  have hne : eventPan w ≠ 0 := by intro h0; rw [h0] at h; exact absurd h (by decide)
  rw [decodeEvent, if_neg hne, if_pos h']

theorem decodeEvent_of_eight_le_pan {t : Track} {w : Word} (h : 8 ≤ (eventPan w).toNat) :
    decodeEvent t w = .evRsvd t (eventTrig w) (eventPan w) := by
  have hne : eventPan w ≠ 0 := by intro h0; rw [h0] at h; exact absurd h (by decide)
  rw [decodeEvent, if_neg hne, if_neg (by omega)]

/-- The pan field is 0, 1 to 7, or 8 and more. -/
theorem eventPan_cases (w : Word) :
    eventPan w = 0 ∨ (1 ≤ (eventPan w).toNat ∧ (eventPan w).toNat ≤ 7) ∨ 8 ≤ (eventPan w).toNat := by
  bv_omega

/-- Every event word is a well-formed event, whose word it is (R99, R107). -/
theorem decodeEvent_spec (t : Track) (w : Word) :
    (decodeEvent t w).wellFormed = true ∧ encode (decodeEvent t w) = .event t w := by
  have hw := eventWord_fields w
  rcases eventPan_cases w with h | ⟨h1, h7⟩ | h8
  · rw [decodeEvent_of_pan_zero h]
    exact ⟨rfl, congrArg (Code.event t) (h ▸ hw)⟩
  · rw [decodeEvent_of_pan_le_seven h1 h7]
    exact ⟨decide_eq_true ⟨h1, h7⟩, congrArg (Code.event t) hw⟩
  · rw [decodeEvent_of_eight_le_pan h8]
    exact ⟨decide_eq_true h8, congrArg (Code.event t) hw⟩

/-! ## The decoder and the encoder are inverse to each other -/

/-- A well-formed instruction is what its words decode to. -/
theorem decode_encode {i : Instr} (h : i.wellFormed = true) : decode (encode i) = i := by
  cases i with
  | wr a d =>
    have ha : a ≠ cmdAddr := by simpa [Instr.wellFormed, cmdAddr] using h
    exact if_neg ha
  | cmdRsvd w => exact decodeCommand_of_reserved (of_decide_eq_true h)
  | ev t trig =>
    have hd := decodeEvent_of_pan_zero (t := t) (eventPan_eventWord trig 0)
    rwa [eventTrig_eventWord] at hd
  | evPan t trig p =>
    obtain ⟨h1, h7⟩ := of_decide_eq_true h
    have hd := decodeEvent_of_pan_le_seven (t := t) (w := eventWord trig p)
    rw [eventPan_eventWord, eventTrig_eventWord] at hd
    exact hd h1 h7
  | evRsvd t trig p =>
    have hd := decodeEvent_of_eight_le_pan (t := t) (w := eventWord trig p)
    rw [eventPan_eventWord, eventTrig_eventWord] at hd
    exact hd (of_decide_eq_true h)
  | rd | nop | arm | disarm | frame | clrerr => rfl

/-- The decoder on bytes is the decoder on the words they hold (R64). -/
theorem decodeBytes_bytes (c : Code) : decodeBytes c.place c.bytes = .ok (decode c) := by
  rw [decodeBytes, codeOfBytes_bytes]

/-- Settles O1: on words kind by kind, and on bytes through the words they hold. -/
theorem decodeInvertsEncode : Obligations.DecodeInvertsEncode := by
  intro i h
  refine ⟨decode_encode h, ?_⟩
  rw [decodeBytes_bytes, decode_encode h]

/-- A code is the words of the instruction it decodes to. -/
theorem encode_decode (c : Code) : encode (decode c) = c := by
  rcases c with (a | ⟨a, d⟩) | ⟨t, w⟩
  · rfl
  · by_cases ha : a = cmdAddr
    · subst ha
      exact encode_decodeCommand d
    · exact congrArg encode (if_neg ha)
  · exact (decodeEvent_spec t w).2

/-- Settles O2: bus transactions and event words, each well-formed and the words of what they decode to. -/
theorem encodeInvertsDecode : Obligations.EncodeInvertsDecode := by
  intro c
  refine ⟨?_, encode_decode c⟩
  cases c with
  | bus x => exact Machine.decodeBus_wellFormed x
  | event t w => exact (decodeEvent_spec t w).1

/-- Settles O3: each word is the encoding of a well-formed instruction. -/
theorem sampleWordsDecode : Obligations.SampleWordsDecode :=
  ⟨decode_encode (i := .rd 0x000044) rfl, decode_encode (i := .wr 0x00000C 44100) rfl,
    decode_encode (i := .frame) rfl, decode_encode (i := .cmdRsvd 0x00000103) rfl,
    decode_encode (i := .ev 0 0x002001) rfl, decode_encode (i := .evPan 0 0x002001 1) rfl,
    decode_encode (i := .evRsvd 2 0x000001 8) rfl, decode_encode (i := .evRsvd 3 0 255) rfl⟩

end Sys2Proof

namespace Sys2Proof.Machine

/-! ## Event words (R153, R155 to R161) -/

/-- A slot restarted on a melodic track: the whole note of its length, from phase 0 (R156). -/
theorem State.triggerVoice_melodic (s : State) (m : Melodic) (n : Slot) :
    (s.triggerVoice m.track n).timer.toInt = s.length[m].toInt * 65536 ∧ (s.triggerVoice m.track n).phase = 0 ∧
      (s.triggerVoice m.track n).fphase = 0 := by
  have hlo := BitVec.le_toInt (x := s.length[m])
  have hhi := BitVec.toInt_lt (x := s.length[m])
  rw [State.triggerVoice, melodicOf_track]
  exact ⟨toInt_ofInt_of_bounds (by decide) (by omega) (by omega), rfl, rfl⟩

/-- A slot restarted on the percussion track: the whole of its drum sample, from its start (R157). -/
theorem State.triggerVoice_percussion {s : State} (hs : s.params.Valid) (n : Slot) :
    (s.triggerVoice percussion n).timer.toInt = s.drumLen n * 65536 ∧ (s.triggerVoice percussion n).phase = 0 ∧
      (s.triggerVoice percussion n).fphase = 0 := by
  have hlen := State.drumLen_le hs n
  rw [State.triggerVoice, melodicOf_percussion]
  refine ⟨?_, rfl, rfl⟩
  rw [← BitVec.ofInt_natCast, toInt_ofInt_of_bounds (by decide)] <;> push_cast <;> omega

/-- The slots after the part every event word has. -/
theorem State.eventCommon_voice (s : State) (t t' : Track) (trig : BitVec 24) (n' : Slot) :
    (s.eventCommon t trig).voice t' n' =
      if t' = t ∧ trig.getLsbD n'.val = true then s.triggerVoice t n' else s.voice t' n' := by
  rw [← State.applyTriggers_voice, State.eventCommon_frame]
  rfl

/-- `TriggersAndGains` says nothing of the next state but its slots and loudness multipliers. -/
theorem TriggersAndGains.congr {s u v : State} {t : Track} {trig : BitVec 24} (h : TriggersAndGains s t trig u)
    (hvoices : v.voices = u.voices) (hvmix : v.vmix = u.vmix) (hlow : v.vmixLow = u.vmixLow) :
    TriggersAndGains s t trig v := by
  unfold TriggersAndGains State.voice at *
  rwa [hvoices, hvmix, hlow]

/-- The part every event word has starts the slots of the mask and recomputes the gains of the track (R153). -/
theorem State.eventCommon_triggersAndGains (s : State) (t : Track) (trig : BitVec 24) :
    TriggersAndGains s t trig (s.eventCommon t trig) := by
  have hstart : ∀ n : Slot, trig.getLsbD n.val = true → (s.eventCommon t trig).voice t n = s.triggerVoice t n :=
    fun n hn => (s.eventCommon_voice t t trig n).trans (if_pos ⟨rfl, hn⟩)
  have hvmix : ∀ t' : Track, (s.eventCommon t trig).vmix[t'] =
      if t' = t then volumeGain s.volume[t] else s.vmix[t'] := by
    intro t'
    rw [State.eventCommon_frame, getElem_set_fin]
  have hlow : (s.eventCommon t trig).vmixLow = if t = percussion then volumeGainLow s.volume[t] else s.vmixLow := by
    rw [State.eventCommon_frame]
  refine ⟨fun m hm n hn => ?_, fun hp hs n drum hn hdrum => ?_, fun t' n hn => ?_, ?_, fun t' ht => ?_, fun hp => ?_,
    fun hp => ?_⟩
  · rw [hstart n hn, hm]
    exact s.triggerVoice_melodic m n
  · rw [hstart n hn, hp, ← State.drumLen_of_getElem? hdrum]
    exact State.triggerVoice_percussion hs n
  · rw [State.eventCommon_voice, if_neg hn]
  · rw [hvmix, if_pos rfl, volumeGain_toNat, mb_eq]
  · rw [hvmix, if_neg ht]
  · rw [hlow, if_pos hp, volumeGainLow_toNat, mb_eq]
  · rw [hlow, if_neg hp]

/-- Settles O30: EV is the part every event word has. -/
theorem evTriggersSlots : Obligations.EvTriggersSlots := by
  intro s t trig
  refine ⟨s.eventCommon t trig, rfl, s.eventCommon_triggersAndGains t trig, ?_⟩
  rw [State.eventCommon_frame]

/-- EV.PAN is that part, and the pan update from the table, which the triggers leave alone (R161). -/
theorem exec_evPan (s : State) (t : Track) (trig : BitVec 24) (p : BitVec 8) :
    exec (.evPan t trig p) s = .next ((s.eventCommon t trig).setPan t (s.panEntry p)) := by
  have hq : (s.eventCommon t trig).panEntry p = s.panEntry p := by rw [State.eventCommon_frame]; rfl
  rw [← hq]
  rfl

/-- A pan index in range reads its entry of the table. -/
theorem State.panEntry_of_lt (s : State) {p : BitVec 8} (k : Fin 8) (hp : p.toNat = k.val) :
    s.panEntry p = s.params.panTable[k] := by
  have hlt : p.toNat < 8 := hp ▸ k.isLt
  rw [State.panEntry, dif_pos hlt]
  simp only [hp, Fin.getElem_fin]

/-- The gain of a register argument, with the bounds of the curve's domain written out (R14). -/
theorem gainReg_toNat_eq (q : Int) : (gainReg q).toNat = gain (max (-10000) (min 0 q)) := by
  rw [gainReg_toNat, clamp_eq q (by decide)]

/-- Settles O31: the pan update reaches the pan multipliers of its own track only. -/
theorem evPanSetsPan : Obligations.EvPanSetsPan := by
  intro s t trig p k _ hp
  obtain ⟨hvl, hvr⟩ := exec_evPan_multipliers (exec_evPan s t trig p)
  refine ⟨_, exec_evPan s t trig p, (s.eventCommon_triggersAndGains t trig).congr rfl rfl rfl, ?_, ?_, ?_,
    fun t' ht => ?_⟩
  · rw [State.eventCommon_frame]
    rfl
  · rw [hvl, gainReg_toNat_eq, s.panEntry_of_lt k hp]
  · rw [hvr, gainReg_toNat_eq, s.panEntry_of_lt k hp]
  · rw [State.setPan_vl, State.setPan_vr, getElem_set_fin, getElem_set_fin, if_neg ht, if_neg ht,
      State.eventCommon_frame]
    exact ⟨rfl, rfl⟩

/-! ## The event queue and the reset line (R63, R270) -/

/-- No instruction reaches the event queue or the reset line (log entries 3 and 4). -/
theorem exec_outside {i : Instr} {s u : State} (h : exec i s = .next u) :
    u.inbox = s.inbox ∧ u.resetLine = s.resetLine := by
  apply exec_induction h fun v => v.inbox = s.inbox ∧ v.resetLine = s.resetLine
  case badRead | raise => intros; rw [State.raiseError_eq]; exact ⟨rfl, rfl⟩
  case store => intros; rw [State.storeTarget_frame]; exact ⟨rfl, rfl⟩
  case frame =>
    intro _
    obtain ⟨vs, l, r, hframe, -⟩ := s.renderFrame_spec
    have f := s.playEvents_frame
    rw [hframe]
    rcases s.tickCheck_cases with ⟨-, hcheck⟩ | ⟨-, hcheck⟩ <;> rw [hcheck]
    · exact ⟨f.inbox, f.resetLine⟩
    · exact ⟨rfl, rfl⟩
  case event =>
    intro t w
    have f := s.runEvent_frame t w
    exact ⟨f.inbox, f.resetLine⟩
  case evPan => intro t trig p; rw [State.runEvPan, State.eventCommon_frame]; exact ⟨rfl, rfl⟩
  case evRsvd =>
    intro t trig p
    rw [State.runEvRsvd, State.raiseError_eq, State.eventCommon_frame]
    exact ⟨rfl, rfl⟩
  all_goals intros; exact ⟨rfl, rfl⟩

/-- The step that takes a transaction executes its instruction, with the ports cleared, and leaves the rest of the
queue. -/
theorem step_bus {s : State} {x : BusTxn} {rest : List HostEvent} (h : s.inbox = .bus x :: rest)
    (hr : s.resetLine = false) :
    ∃ u, step s = .next u ∧ exec (decodeBus x) { s.clearPorts with inbox := rest } = .next u ∧ u.inbox = rest ∧
      u.resetLine = false := by
  obtain ⟨u, hu⟩ := exec_next (decodeBus x) { s.clearPorts with inbox := rest }
  obtain ⟨hinbox, hline⟩ := exec_outside hu
  exact ⟨u, (step_of_inbox_bus h hr).trans hu, hu, hinbox, hline.trans hr⟩

/-! ## The render sink (R100, R139) -/

/-- A read of OUT_FRAME returns the latched frame, right in the high half (R68, R100). -/
theorem exec_rd_outFrame (s : State) :
    exec (.rd outFrameAddr) s =
      .next { s with readData := some (BitVec.ofNat 32 (s.outR.toNat * 65536 + s.outL.toNat)) } :=
  exec_rd_of_target .outFrame rfl nofun (append_eq_ofNat s.outR s.outL)

/-- Settles O47: the read finds the frame that FRAME latched and strobed. -/
theorem renderSinkReadsTheFrame : Obligations.RenderSinkReadsTheFrame := by
  intro s rest hr hs
  obtain ⟨u, hstep, hexec, hinbox, hline⟩ :=
    step_bus (x := cmdTxn .frame) (rest := .bus (.read outFrameAddr) :: rest) hs hr
  have hframe : u.framePort = [⟨u.outL, u.outR⟩] := execFrame_framePort hexec
  have hread := (step_of_inbox_bus hinbox hline).trans (exec_rd_outFrame { u.clearPorts with inbox := rest })
  exact ⟨u, _, _, hstep, hread, hframe, rfl, rfl, rfl⟩

/-! ## The load image (R101 to R103) -/

/-- A transaction that is a write to an address other than CMD. -/
def WritesOffCmd (x : BusTxn) : Prop := ∃ a d, x = .write a d ∧ a ≠ cmdAddr

/-- Reading the field makes the host write, but never to CMD. -/
def ImageField.AvoidsCmd (f : ImageField) : Prop := ∀ bs, ∀ x ∈ f.txns bs, WritesOffCmd x

/-- The bytes of a list of fields. -/
def fieldsSize (fs : List ImageField) : Nat := (fs.map ImageField.size).sum

theorem writesOffCmd_addrOf {n : Nat} (h : 4 < n) (h' : n < 16777216) (d : Word) :
    WritesOffCmd (.write (addrOf n) d) := by
  refine ⟨_, d, rfl, fun hc => ?_⟩
  have hn : n = 4 := (addr_toNat h').symm.trans (congrArg BitVec.toNat hc)
  omega

theorem packTxns_writesOffCmd {addr k : Nat} (h : 4 < addr) (h' : addr + 4 * k ≤ 16777216) {bs : List Byte} :
    ∀ x ∈ packTxns addr k bs, WritesOffCmd x := by
  induction k generalizing addr bs with
  | zero => nofun
  | succ k ih =>
    rw [packTxns, List.forall_mem_cons]
    exact ⟨writesOffCmd_addrOf h (by omega) _, ih (by omega) (by omega)⟩

theorem ImageField.AvoidsCmd.ignored (size : Nat) : (ImageField.ignored size).AvoidsCmd := nofun

theorem ImageField.AvoidsCmd.register (size : Nat) {addr : Nat} (h : 4 < addr) (h' : addr < 16777216) :
    (ImageField.register size addr).AvoidsCmd := by
  intro bs x hx
  rw [List.mem_singleton.1 hx]
  exact writesOffCmd_addrOf h h' _

theorem waveTxns_writesOffCmd (m : Melodic) (bs : List Byte) : ∀ x ∈ waveTxns m bs, WritesOffCmd x := by
  have hm := m.isLt
  exact packTxns_writesOffCmd (by unfold waveAddr; omega) (by unfold waveAddr; omega)

theorem envTxns_writesOffCmd (m : Melodic) (bs : List Byte) : ∀ x ∈ envTxns m bs, WritesOffCmd x := by
  have hm := m.isLt
  exact packTxns_writesOffCmd (by unfold envAddr; omega) (by unfold envAddr; omega)

theorem melodicFields_avoidCmd (m : Melodic) : ∀ f ∈ melodicFields m, f.AvoidsCmd := by
  have hm := m.isLt
  simp only [melodicFields, List.forall_mem_cons]
  exact ⟨.register _ (by omega) (by omega), .ignored _,
    .register _ (by omega) (by omega), .register _ (by omega) (by omega), .ignored _,
    .ignored _, waveTxns_writesOffCmd m, envTxns_writesOffCmd m, nofun⟩

theorem headerFields_avoidCmd : ∀ f ∈ headerFields, f.AvoidsCmd := by
  simp only [headerFields, List.forall_mem_append, List.forall_mem_cons]
  refine ⟨⟨⟨⟨⟨.ignored _, .ignored _, ?_, ?_, ?_, ?_, nofun⟩, melodicFields_avoidCmd 0⟩,
    melodicFields_avoidCmd 1⟩, melodicFields_avoidCmd 2⟩, ?_, nofun⟩
  all_goals exact .register _ (by decide) (by decide)

/-- Up to 2^18 words a track's event words stay in its own region, far above CMD (R71). -/
theorem trackFields_avoidCmd (t : Track) {count j : Nat} (h : j + count ≤ 262144) :
    ∀ f ∈ trackFields t count j, f.AvoidsCmd := by
  have ht := t.isLt
  induction count generalizing j with
  | zero => nofun
  | succ count ih =>
    rw [trackFields, List.forall_mem_cons]
    refine ⟨fun bs x hx => ?_, ih (by omega)⟩
    rw [List.mem_singleton.1 hx]
    exact writesOffCmd_addrOf (by unfold noteAddr; omega) (by unfold noteAddr; omega) _

theorem noteFields_avoidCmd {count : Nat} (h : count ≤ 262144) : ∀ f ∈ noteFields count, f.AvoidsCmd := by
  have ht : ∀ t, ∀ f ∈ trackFields t count 0, f.AvoidsCmd := fun t => trackFields_avoidCmd t (by omega)
  simp only [noteFields, List.forall_mem_append]
  exact ⟨⟨⟨ht 0, ht 1⟩, ht 2⟩, ht 3⟩

theorem fieldsSize_append (fs fs' : List ImageField) : fieldsSize (fs ++ fs') = fieldsSize fs + fieldsSize fs' := by
  simp [fieldsSize]

theorem fieldsSize_headerFields : fieldsSize headerFields = 1048 := rfl

theorem fieldsSize_trackFields (t : Track) (count j : Nat) : fieldsSize (trackFields t count j) = 4 * count := by
  induction count generalizing j with
  | zero => rfl
  | succ count ih =>
    have hcons : fieldsSize (trackFields t (count + 1) j) = 4 + fieldsSize (trackFields t count (j + 1)) := rfl
    rw [hcons, ih]
    omega

theorem fieldsSize_noteFields (count : Nat) : fieldsSize (noteFields count) = 16 * count := by
  simp only [noteFields, fieldsSize_append, fieldsSize_trackFields]
  omega

/-- Reading fields stops short exactly when they have more bytes than there are (R138). -/
theorem readFields_rest (fs : List ImageField) (bs : List Byte) :
    (readFields fs bs).2 = if bs.length < fieldsSize fs then none else some (bs.drop (fieldsSize fs)) := by
  induction fs generalizing bs with
  | nil => rfl
  | cons f fs ih =>
    have hsize : fieldsSize (f :: fs) = f.size + fieldsSize fs := rfl
    rw [readFields, hsize]
    by_cases hshort : bs.length < f.size
    · rw [if_pos hshort, if_pos (by omega)]
    · have hrest : (bs.drop f.size).length < fieldsSize fs ↔ bs.length < f.size + fieldsSize fs := by
        rw [List.length_drop]; omega
      rw [if_neg hshort]
      simp only [ih, hrest, List.drop_drop]

theorem readFields_writesOffCmd {fs : List ImageField} (h : ∀ f ∈ fs, f.AvoidsCmd) (bs : List Byte) :
    ∀ x ∈ (readFields fs bs).1, WritesOffCmd x := by
  induction fs generalizing bs with
  | nil => nofun
  | cons f fs ih =>
    obtain ⟨hf, hfs⟩ := List.forall_mem_cons.1 h
    rw [readFields]
    split_ifs
    · nofun
    · exact List.forall_mem_append.2 ⟨hf _, ih hfs _⟩

/-- The load of a truncated image is DISARM and writes off CMD: after a short read no ARM is issued
(R138). -/
theorem loadTxns_of_truncated {image : List Byte} (rate : Word) (hcount : imageRecordCount image ≤ 262144)
    (hshort : image.length < imageSize image) :
    ∃ xs, loadTxns image rate = cmdTxn .disarm :: xs ∧ ∀ x ∈ xs, WritesOffCmd x := by
  have hheader := readFields_writesOffCmd headerFields_avoidCmd image
  have hrest := readFields_rest headerFields image
  rw [fieldsSize_headerFields] at hrest
  refine ⟨_, rfl, List.forall_mem_append.2 ⟨hheader, ?_⟩⟩
  by_cases hlt : image.length < 1048
  · rw [if_pos hlt] at hrest
    rw [hrest]
    nofun
  · have hnotes := readFields_rest (noteFields (imageRecordCount image)) (image.drop 1048)
    unfold imageSize at hshort
    rw [fieldsSize_noteFields, if_pos (by rw [List.length_drop]; omega)] at hnotes
    rw [if_neg hlt] at hrest
    simp only [hrest, hnotes, List.append_nil]
    exact readFields_writesOffCmd (noteFields_avoidCmd hcount) _

/-! ## Running a load (R138) -/

theorem run_succ {M : Host.Core} {s u : M.State} (h : M.step s = .next u) (k : Nat) : M.run (k + 1) s = M.run k u := by
  rw [Host.Core.run, h]

/-- A write off CMD leaves READY (R52, R123). -/
theorem exec_ready_of_writesOffCmd {x : BusTxn} {s u : State} (hx : WritesOffCmd x)
    (h : exec (decodeBus x) s = .next u) : u.ready = s.ready := by
  obtain ⟨a, d, rfl, ha⟩ := hx
  have hdecode : decodeBus (.write a d) = .wr a d := if_neg ha
  obtain ⟨-, hready, -⟩ := busAccessesLeavePlayState _ s u (.inr ⟨a, d, hdecode, ha⟩) h
  exact hready

/-- Writes off CMD, run to the end of the queue, leave READY = 0. -/
theorem run_writesOffCmd {xs : List BusTxn} (hxs : ∀ x ∈ xs, WritesOffCmd x) {s : State}
    (hs : s.inbox = xs.map .bus) (hline : s.resetLine = false) (hready : s.ready = false) :
    ∃ u : State, core.run xs.length s = .next u ∧ u.ready = false ∧ u.inbox = [] := by
  induction xs generalizing s with
  | nil => exact ⟨s, rfl, hready, hs⟩
  | cons x xs ih =>
    obtain ⟨hx, hxs⟩ := List.forall_mem_cons.1 hxs
    obtain ⟨u, hstep, hexec, hinbox, hline'⟩ := step_bus hs hline
    have hready' : u.ready = false := (exec_ready_of_writesOffCmd hx hexec).trans hready
    obtain ⟨v, hrun, hv⟩ := ih hxs hinbox hline' hready'
    exact ⟨v, (run_succ (M := core) hstep _).trans hrun, hv⟩

/-- Settles O60: the DISARM clears READY, and the writes of a truncated image leave it. -/
theorem truncatedLoadNeverPlays : Obligations.TruncatedLoadNeverPlays := by
  intro s image rate hs hline hcount hshort
  obtain ⟨xs, hload, hxs⟩ := loadTxns_of_truncated rate hcount hshort
  have hqueue : (s.issue (cmdTxn .disarm :: xs)).inbox = .bus (cmdTxn .disarm) :: xs.map .bus := by
    rw [State.issue, hs]
    rfl
  obtain ⟨u, hstep, hexec, hinbox, hline'⟩ := step_bus hqueue hline
  have hready : u.ready = false := by cases hexec; rfl
  obtain ⟨v, hrun, hv⟩ := run_writesOffCmd hxs hinbox hline' hready
  rw [hload]
  exact ⟨v, (run_succ (M := core) hstep _).trans hrun, hv⟩

end Sys2Proof.Machine

/-! The host bus family (spec/40_host_bus.md): what a write to each row of the address map stores and what play locks
(R121 to R125), what each command does (R127 to R136), the frame as a saturated sum (R133, R220 to R226), and that
every step keeps what ARM latched in agreement with the locked configuration (R129, R150 to R152, R159, R160). -/

namespace Sys2Proof.Machine

/-! ## Bus writes (R121 to R125) -/

/-- A write to a lock target: refused while the block plays (R122), and stored in configuration mode (R123 to R125). -/
theorem exec_wr_of_locked {s : State} {a : Addr} (hx : (s.target a).access = .locked) (d : Word) :
    exec (.wr a d) s =
      if s.ready then .next (s.raiseError .lock (a.setWidth 32)) else .next (s.storeTarget (s.target a) d) := by
  simp only [exec, execWr, hx, addrInfo]

/-- In configuration mode a lock target takes the store. -/
theorem exec_wr_of_target {s : State} {a : Addr} (x : Target) (ht : s.target a = x) (hx : x.access = .locked)
    (hr : s.ready = false) (d : Word) : exec (.wr a d) s = .next (s.storeTarget x d) := by
  subst ht
  rw [exec_wr_of_locked hx, if_neg (by simp [hr])]

/-- Settles O15: every lock address selects a lock target. -/
theorem writeLocked : Obligations.WriteLocked := by
  intro s a d hd hr ha
  obtain ⟨hlocked, -⟩ := s.target_access a hd
  rw [exec_wr_of_locked (hlocked.2 ha), if_pos hr]

theorem State.target_volume (s : State) (t : Track) :
    s.target (BitVec.ofNat 24 (0x108 + 0x20 * t.val)) = .volume t := by
  have haddr : 0x108 + 0x20 * t.val = 0x100 + 0x20 * t.val + 0x08 := by omega
  rw [haddr, s.target_track t 0x08 (by decide) rfl]
  rfl

/-- Settles O17: one register a line, with the target its address selects. -/
theorem writeRegisters : Obligations.WriteRegisters := by
  intro s d hr
  exact ⟨exec_wr_of_target .sampleRate rfl rfl hr d, exec_wr_of_target .tickMs rfl rfl hr d,
    exec_wr_of_target .repeatTick rfl rfl hr d, exec_wr_of_target .endTick rfl rfl hr d,
    exec_wr_of_target .recordCount rfl rfl hr d,
    fun m => ⟨_, exec_wr_of_target _ (s.target_length m) rfl hr d, rfl, fun m' => getElem_set_fin s.length m m' d⟩,
    fun t => ⟨_, exec_wr_of_target _ (s.target_volume t) rfl hr d, rfl, fun t' => getElem_set_fin s.volume t t' d⟩⟩

/-- The low byte of a word, as a number. -/
theorem low_byte_eq_ofNat (d : Word) : d.extractLsb' 0 8 = BitVec.ofNat 8 (d.toNat % 256) := by
  apply BitVec.eq_of_toNat_eq
  rw [extractLsb'_eq_ofNat_div, BitVec.toNat_ofNat, BitVec.toNat_ofNat]
  omega

/-- Settles O18: OCTAVE takes the low byte. -/
theorem writeOctave : Obligations.WriteOctave := by
  intro s m d hr
  refine ⟨_, exec_wr_of_target _ (s.target_octave m) rfl hr d, rfl, fun m' => ?_⟩
  rw [← low_byte_eq_ofNat]
  exact getElem_set_fin s.octave m m' _

/-- Settles O19: each window selects its word, whose store is its four bytes. -/
theorem writeMemory : Obligations.WriteMemory := by
  intro s a base d hr hd hwindow
  have hexec : exec (.wr a d) s = .next (s.writeRamWord base d) := by
    rcases hwindow with ⟨m, j, hj, rfl, rfl⟩ | ⟨m, j, hj, rfl, rfl⟩ | ⟨t, j, hj, rfl, rfl⟩
    · exact exec_wr_of_target _ (s.target_wave m j hj) rfl hr d
    · exact exec_wr_of_target _ (s.target_env m j hj) rfl hr d
    · exact exec_wr_of_target _ (s.target_note t j hd hj) rfl hr d
  refine ⟨_, hexec, rfl, fun k hk => ?_, fun x hx => ?_⟩
  · rw [State.ramByte_writeRamWord, if_pos (by omega), Nat.add_sub_cancel_left]
  · rw [State.ramByte_writeRamWord, if_neg (by omega)]

/-! ## Commands (R127 to R136) -/

theorem exec_decodeCommand (d : Word) (s : State) : exec (decodeCommand d) s = executeCommand d s := by
  unfold decodeCommand executeCommand
  split_ifs <;> rfl

/-- Settles O16: address 4 is CMD, whose write executes the command decoded. -/
theorem writeToCmdExecutes : Obligations.WriteToCmdExecutes := fun s d => (exec_decodeCommand d s).symm

/-- A write of its word to CMD does what the command does (R121, R127). -/
theorem exec_wr_cmd {i : Instr} {d : Word} (hd : decodeCommand d = i) {s : State} {o : Host.Outcome State Fault Refusal}
    (h : exec i s = o) : exec (.wr 0x04 d) s = o := by
  rw [writeToCmdExecutes, hd, h]

/-- Settles O21: NOP and command word 0. -/
theorem nopChangesNothing : Obligations.NopChangesNothing := fun _ => ⟨rfl, exec_wr_cmd (i := .nop) rfl rfl⟩

/-- Settles O25: DISARM and command word 2. -/
theorem disarmClearsReady : Obligations.DisarmClearsReady := fun _ => ⟨rfl, exec_wr_cmd (i := .disarm) rfl rfl⟩

/-- FRAME in configuration mode (R134). -/
theorem exec_frame_of_not_ready {s : State} (hr : s.ready = false) :
    exec .frame s = .next { s with outL := 0, outR := 0, framePort := s.framePort ++ [⟨0, 0⟩] } := by
  obtain ⟨u, h⟩ := exec_next .frame s
  rcases execFrame_cases h with ⟨hr', -⟩ | ⟨-, rfl⟩
  · exact absurd (hr.symm.trans hr') nofun
  · exact h

/-- Settles O26: FRAME and command word 3. -/
theorem frameNotReadyIsSilent : Obligations.FrameNotReadyIsSilent := by
  intro s hr
  exact ⟨exec_frame_of_not_ready hr, exec_wr_cmd (i := .frame) rfl (exec_frame_of_not_ready hr)⟩

/-- Settles O27: CLRERR and command word 4. -/
theorem clrerrClearsTheRecord : Obligations.ClrerrClearsTheRecord := by
  intro s
  simp only [List.forall_mem_cons, List.not_mem_nil, false_imp_iff, implies_true, and_true]
  exact ⟨rfl, exec_wr_cmd (i := .clrerr) rfl rfl⟩

/-- Settles O28: CMD.RSVD and the command words above 4. -/
theorem reservedCommandRaises : Obligations.ReservedCommandRaises := by
  intro s w hw
  exact ⟨rfl, exec_wr_cmd (decodeCommand_of_reserved hw) rfl⟩

/-! ## ARM (R129 to R131, R151, R152) -/

theorem exec_arm_of_passes {s : State} (h : s.armFailMask = 0) : exec .arm s = .next s.armInit := if_pos h

theorem exec_arm_of_fails {s : State} (h : s.armFailMask ≠ 0) :
    exec .arm s = .next (s.raiseError .cfg s.armFailMask) := if_neg h

/-- The two parts of the fail mask share no bit, so that it is their sum (R129). -/
theorem State.armFailMask_eq_ofNat {s : State} {low high : Nat}
    (hlow : low = if s.sampleRate = 0 then 1
      else if tincOf s.params.refRate s.sampleRate = 0 ∨ 4294967296 ≤ tincOf s.params.refRate s.sampleRate then 2
      else 0)
    (hhigh : high = if s.recordCount.toInt < 0 ∨ (s.params.noteDepth : Int) < s.recordCount.toInt then 4 else 0) :
    s.armFailMask = BitVec.ofNat 32 (low + high) := by
  subst hlow hhigh
  unfold State.armFailMask
  split_ifs <;> rfl

/-- Settles O22: the mask of a failing check is not 0, for its parts are small numbers. -/
theorem armRefusedWithMask : Obligations.ArmRefusedWithMask := by
  intro s low high hlow hhigh hfail
  have hmask : s.armFailMask = BitVec.ofNat 32 (low + high) := State.armFailMask_eq_ofNat hlow hhigh
  have hsmall : low + high ≤ 6 := by rw [hlow, hhigh]; split_ifs <;> decide
  have hne : s.armFailMask ≠ 0 := by
    rw [hmask]
    intro h
    have hzero := congrArg BitVec.toNat h
    rw [BitVec.toNat_ofNat, Nat.mod_eq_of_lt (by omega)] at hzero
    exact hfail hzero
  rw [exec_arm_of_fails hne, hmask]

/-- TINC as ARM latches it is the exact quotient, which the check keeps within 32 bits (R129, R151). -/
theorem State.armInit_tinc_toNat {s : State} (h : s.armFailMask = 0) :
    s.armInit.tinc.toNat = tincOf s.params.refRate s.sampleRate := by
  obtain ⟨-, -, hlt, -⟩ := s.armFailMask_eq_zero.1 h
  rw [State.armInit_tinc, BitVec.toNat_ofNat, Nat.mod_eq_of_lt hlt]

/-- SPT as ARM latches it is the exact tick length, which fits 64 bits (R152). -/
theorem State.armInit_spt_toNat (s : State) : (s.armInit.spt.toNat : Int) = sptOf s.sampleRate s.tickMs :=
  sptOf_toNat s.sampleRate s.tickMs

/-- ARM centres the pan (R130). -/
theorem State.armInit_pan (s : State) (t : Track) : s.armInit.vl[t] = 32768 ∧ s.armInit.vr[t] = 32768 := by
  simp

theorem State.armInit_vmix_track (s : State) (t : Track) : s.armInit.vmix[t] = volumeGain s.volume[t] := by
  simp

/-- Settles O23: what ARM latches, as numbers. -/
theorem armInitialisesPlay : Obligations.ArmInitialisesPlay := by
  intro s hrate hlo hhi hcount hdepth
  have hpass : s.armFailMask = 0 := s.armFailMask_eq_zero.2 ⟨hrate, hlo, hhi, hcount, hdepth⟩
  refine ⟨s.armInit, exec_arm_of_passes hpass, rfl, State.armInit_tinc_toNat hpass,
    s.armInit_spt_toNat, s.armInit_voice, fun t => ?_, ?_⟩
  · obtain ⟨hvl, hvr⟩ := s.armInit_pan t
    refine ⟨hvl, hvr, ?_⟩
    rw [State.armInit_vmix_track, volumeGain_toNat, mb_eq]
  · rw [State.armInit_vmixLow, volumeGainLow_toNat, mb_eq]

/-- A playing block passes the configuration check (R131). -/
theorem State.PlayLegal.armFailMask {s : State} (h : s.PlayLegal) (hr : s.ready = true) : s.armFailMask = 0 := by
  obtain ⟨hrate, hpos, htinc, hcount, hdepth, -, -⟩ := h hr
  have hlt := s.tinc.isLt
  exact s.armFailMask_eq_zero.2 ⟨hrate, by omega, by omega, hcount, hdepth⟩

/-- Settles O24: the check passes as it did, and gives the rates it gave. -/
theorem armWhilePlayingRestarts : Obligations.ArmWhilePlayingRestarts := by
  intro s hr hs
  have hpass := hs.armFailMask hr
  obtain ⟨-, -, htinc, -, -, hspt, -⟩ := hs hr
  refine ⟨s.armInit, exec_arm_of_passes hpass, rfl, rfl, rfl, ?_, ?_, fun t n => ?_, fun c => ?_, rfl, rfl⟩
  · exact BitVec.eq_of_toNat_eq ((State.armInit_tinc_toNat hpass).trans htinc.symm)
  · have harm := s.armInit_spt_toNat
    exact BitVec.eq_of_toNat_eq (by omega)
  · exact ⟨s.armInit_voice t n, s.armInit_pan t⟩
  · cases c <;> rfl

/-! ## The frame as a saturated sum (R220 to R226) -/

/-- The contributions of a frame are those of its slots in the order they are rendered (R220). -/
theorem State.contributions_eq_filterMap (s : State) :
    s.contributions = allSlots.filterMap fun q => (s.slotStep q.1 q.2).2 := by
  simp only [State.contributions, allSlots, List.filterMap_flatMap, List.filterMap_map, Function.comp_def]

/-- An accumulator after the slots of a list, as a number: one channel p of each contribution added, each sum saturated
(R223). -/
theorem foldl_addContribution_toInt {α : Type} (f : α → Option (Int × Int)) (p : Int × Int → Int) (l : List α)
    (acc : BitVec 16) :
    (l.foldl (fun acc q => addContribution acc ((f q).map p)) acc).toInt =
      (l.filterMap f).foldl (fun acc c => max (-32768) (min 32767 (acc + p c))) acc.toInt := by
  induction l generalizing acc with
  | nil => rfl
  | cons q l ih =>
    rw [List.foldl_cons, ih]
    cases hq : f q with
    | none => rw [List.filterMap_cons_none hq]; rfl
    | some c =>
      have hadd : (addContribution acc (some (p c))).toInt = max (-32768) (min 32767 (acc.toInt + p c)) :=
        (addSat_toInt acc (p c)).trans (sat16_eq _)
      rw [List.filterMap_cons_some hq, List.foldl_cons, ← hadd]
      rfl

/-- An accumulator after all slots of a frame, from 0. -/
theorem State.foldl_allSlots_toInt (s : State) (p : Int × Int → Int) :
    (allSlots.foldl (fun acc q => addContribution acc ((s.slotStep q.1 q.2).2.map p)) 0).toInt =
      s.contributions.foldl (fun acc c => max (-32768) (min 32767 (acc + p c))) 0 := by
  rw [State.contributions_eq_filterMap]
  exact foldl_addContribution_toInt (fun q : Track × Slot => (s.slotStep q.1 q.2).2) p allSlots 0

theorem exec_frame_of_ready {s : State} (hr : s.ready = true) : exec .frame s = .next s.renderFrame := if_pos hr

/-- Settles O37: the accumulators of a frame, as numbers, are its output. -/
theorem frameIsSaturatedSum : Obligations.FrameIsSaturatedSum := by
  intro s hr
  obtain ⟨vs, l, r, hframe, hvoice, hl, hr'⟩ := s.renderFrame_spec
  rw [s.tickCheck_framePort] at hframe
  have hexec := (exec_frame_of_ready hr).trans (congrArg Host.Outcome.next hframe)
  have hleft := s.tickCheck.foldl_allSlots_toInt Prod.fst
  have hright := s.tickCheck.foldl_allSlots_toInt Prod.snd
  rw [← hl] at hleft
  rw [← hr'] at hright
  exact ⟨_, hexec, hvoice, hleft, hright, rfl, rfl, rfl, rfl⟩

/-! ## What ARM latched agrees with the locked configuration (R129, R150 to R152, R159, R160) -/

/-- In configuration mode nothing is claimed of the rates. -/
theorem State.PlayLegal.of_not_ready {s : State} (hr : s.ready = false) : s.PlayLegal :=
  fun h => absurd (hr.symm.trans h) nofun

/-- Event words reach neither the rates nor the configuration. -/
theorem State.PlayLegal.of_eventFrame {s u : State} (h : s.PlayLegal) (f : EventFrame s u) : u.PlayLegal := by
  unfold State.PlayLegal
  rw [f.ready, f.sampleRate, f.tinc, f.params, f.recordCount, f.spt, f.tickMs, f.cd]
  exact h

/-- A countdown below SPT may replace that of a playing state. -/
theorem State.PlayLegal.countdown {s : State} (h : s.PlayLegal) (pos : Word) {cd : BitVec 64}
    (hcd : cd.toNat < s.spt.toNat) : ({ s with pos := pos, cd := cd } : State).PlayLegal := by
  intro hr
  obtain ⟨hrate, hpos, htinc, hcount, hdepth, hspt, -⟩ := h hr
  exact ⟨hrate, hpos, htinc, hcount, hdepth, hspt, hcd⟩

/-- The tick check of a playing block reloads the countdown with SPT - 1 or takes 1 from it, never below 0 (R150). -/
theorem State.PlayLegal.tickCheck {s : State} (h : s.PlayLegal) (hr : s.ready = true) : s.tickCheck.PlayLegal := by
  obtain ⟨-, -, -, -, -, -, hbelow⟩ := h hr
  rcases s.tickCheck_cases with ⟨-, hcheck⟩ | ⟨hcd, hcheck⟩ <;> rw [hcheck]
  · have f := s.playEvents_frame
    refine (h.of_eventFrame f).countdown _ ?_
    rw [f.spt]
    bv_omega
  · refine h.countdown s.pos ?_
    bv_omega

theorem State.PlayLegal.renderFrame {s : State} (h : s.PlayLegal) (hr : s.ready = true) : s.renderFrame.PlayLegal := by
  obtain ⟨vs, l, r, hframe, -⟩ := s.renderFrame_spec
  rw [hframe]
  exact h.tickCheck hr

/-- An ARM that passes its check latches what the invariant says (R129, R130). -/
theorem State.PlayLegal.armInit {s : State} (h : s.armFailMask = 0) : s.armInit.PlayLegal := by
  intro _
  obtain ⟨hrate, hpos, -, hcount, hdepth⟩ := s.armFailMask_eq_zero.1 h
  have htinc := State.armInit_tinc_toNat h
  have hspt := s.armInit_spt_toNat
  obtain ⟨hone, -⟩ := sptOf_bounds s.sampleRate s.tickMs
  have hcd : s.armInit.cd.toNat = 0 := rfl
  exact ⟨hrate, htinc ▸ hpos, htinc, hcount, hdepth, hspt, by omega⟩

theorem State.PlayLegal.exec {i : Instr} {s u : State} (hs : s.PlayLegal) (h : exec i s = .next u) : u.PlayLegal := by
  apply exec_induction h State.PlayLegal
  case badRead | raise => intros; rw [State.raiseError_eq]; exact hs
  case store => intro x d hr _ _; rw [State.storeTarget_frame]; exact .of_not_ready hr
  case arm => exact .armInit
  case disarm => exact .of_not_ready rfl
  case frame => exact hs.renderFrame
  case event => exact fun t w => hs.of_eventFrame (s.runEvent_frame t w)
  case evPan => intro t trig p; rw [State.runEvPan, State.eventCommon_frame]; exact hs
  case evRsvd =>
    intro t trig p
    rw [State.runEvRsvd, State.raiseError_eq, State.eventCommon_frame]
    exact hs
  all_goals intros; exact hs

theorem State.PlayLegal.step {s u : State} (hs : s.PlayLegal) (h : step s = .next u) : u.PlayLegal :=
  step_induction State.PlayLegal hs h (fun _ _ _ _ _ hs => hs) (fun _ _ => .of_not_ready rfl)
    (fun _ _ => .of_not_ready rfl) (fun _ _ _ hs => hs.exec)

/-- Recomputing a track's gains gives it those of its volume, and leaves the other tracks (R159, R160). -/
theorem State.LatchLegal.recomputeGains {s : State} (h : s.LatchLegal) (t : Track) :
    (s.recomputeGains t).LatchLegal := by
  intro hr
  obtain ⟨hvmix, hlow⟩ := h (s.recomputeGains_ready t ▸ hr)
  constructor
  · intro t'
    rw [State.recomputeGains_vmix, State.recomputeGains_volume, getElem_set_fin]
    split_ifs with ht
    · rw [ht]
    · exact hvmix t'
  · rw [State.recomputeGains_vmixLow, State.recomputeGains_volume]
    split_ifs with ht
    · rw [ht]
    · exact hlow

theorem latchLegal_keptByStep : KeptByStep State.LatchLegal where
  toKeptByPlay := .of_voices_unread (fun _ _ _ _ _ _ h => h) (fun _ _ _ h => h) (fun _ _ _ _ _ h => h)
    (fun _ t h => h.recomputeGains t) (fun _ _ _ h => h) (fun s c info h => by rwa [State.raiseError_eq])
  store s a d hr _ := by
    rw [State.storeTarget_frame]
    exact fun h => absurd (hr.symm.trans h) nofun
  arm s _ := fun _ => ⟨s.armInit_vmix_track, rfl⟩
  disarm _ _ := nofun
  clear _ h := h
  reset _ _ := nofun
  redraw _ _ h := h

/-- Settles O50: only ARM latches the rates, no store reaches a playing block, and a gain is always recomputed from its
volume. -/
theorem stepKeepsPlayLegal : Obligations.StepKeepsPlayLegal :=
  fun _ _ hplay hlatch h => ⟨hplay.step h, latchLegal_keptByStep.step hlatch h⟩

end Sys2Proof.Machine

/-! The sequencer family (spec/41_sequencer.md): the tick as its four decoded event words (R153, R154), what EV.RSVD
does (R162), the timeline and its loop (R163, R164), and the tick period (R150). -/

namespace Sys2Proof.Machine

/-! ## The event words of a tick (R153, R154) -/

/-- An event word is executed as the instruction it decodes to (R97 to R99). -/
theorem exec_decodeEvent (t : Track) (w : Word) (s : State) : exec (decodeEvent t w) s = .next (s.runEvent t w) := by
  unfold decodeEvent State.runEvent
  split_ifs <;> rfl

/-- The event words of a tick, track by track (R153). -/
theorem State.playEvents_eq (s : State) :
    s.playEvents =
      (((s.runEvent 0 (s.eventAt 0)).runEvent 1 (s.eventAt 1)).runEvent 2 (s.eventAt 2)).runEvent 3 (s.eventAt 3) := by
  have f₁ := s.runEvent_frame 0 (s.eventAt 0)
  have f₂ := f₁.trans (State.runEvent_frame _ 1 (s.eventAt 1))
  have f₃ := f₂.trans (State.runEvent_frame _ 2 (s.eventAt 2))
  rw [← State.eventAt_congr f₃ 3, ← State.eventAt_congr f₂ 2, ← State.eventAt_congr f₁ 1]
  rfl

/-- A position outside [0, RECORD_COUNT) has no event (R154). -/
theorem State.eventAt_of_outside {s : State} (h : s.pos.toInt < 0 ∨ s.recordCount.toInt ≤ s.pos.toInt) (t : Track) :
    s.eventAt t = 0 := if_neg (by omega)

/-- A position inside the timeline reads its word of NOTE RAM (R154). -/
theorem State.eventAt_of_inside {s : State} {j : Nat} (hpos : s.pos.toInt = j) (hj : (j : Int) < s.recordCount.toInt)
    (t : Track) : s.eventAt t = s.noteRead t j := by
  have hnat : s.pos.toNat = j := by
    rw [BitVec.toInt_eq_toNat_cond] at hpos
    split at hpos <;> omega
  rw [State.eventAt, if_pos (by omega), hnat]

/-- Settles O5: no event word writes what the later tracks read. -/
theorem tickRunsDecodedEvents : Obligations.TickRunsDecodedEvents := by
  refine ⟨fun s => ?_, fun s t j hpos hj => State.eventAt_of_inside hpos hj t,
    fun s t h => State.eventAt_of_outside h t⟩
  exact ⟨_, _, _, _, exec_decodeEvent .., exec_decodeEvent .., exec_decodeEvent .., exec_decodeEvent ..,
    congrArg State.advancePos s.playEvents_eq⟩

/-! ## EV.RSVD (R162) -/

/-- Settles O32: EV.RSVD is the part every event word has, and one error raised, which no trigger reads. -/
theorem evRsvdRaisesPan : Obligations.EvRsvdRaisesPan := by
  intro s t trig p _
  refine ⟨s.runEvRsvd t trig p, rfl, (s.eventCommon_triggersAndGains t trig).congr ?_ ?_ ?_, ?_⟩
  · exact State.raiseError_voices _ _ _
  · exact State.raiseError_vmix _ _ _
  · exact State.raiseError_vmixLow _ _ _
  · rw [State.runEvRsvd, State.raiseError_eq, State.eventCommon_frame]
    simp [ErrorCause.code]

/-! ## The timeline (R163, R164) -/

/-- The position after an advance, as a number: the exact successor fits the register whenever it is below END_TICK
(R163). -/
theorem State.advancePos_pos_toInt (s : State) :
    s.advancePos.pos.toInt =
      if s.endTick.toInt ≤ s.pos.toInt + 1 then s.repeatTick.toInt else s.pos.toInt + 1 := by
  rw [State.advancePos_pos]
  split_ifs with h
  · rfl
  · have hlo := BitVec.le_toInt (x := s.pos)
    have hhi := BitVec.toInt_lt (x := s.endTick)
    exact toInt_ofInt_of_bounds (by decide) (by omega) (by omega)

/-- Settles O34: the two branches of the advance. -/
theorem advancePosWraps : Obligations.AdvancePosWraps := by
  intro s
  refine ⟨rfl, fun h => ?_, fun h => ?_⟩
  · rw [State.advancePos_pos, if_pos h]
  · rw [State.advancePos_pos_toInt, if_neg (by omega)]

/-- A tick moves the position as the timeline advances it, whatever its event words are (R153, R163). -/
theorem State.tick_pos_toInt (s : State) :
    s.tick.pos.toInt = if s.endTick.toInt ≤ s.pos.toInt + 1 then s.repeatTick.toInt else s.pos.toInt + 1 := by
  have f := s.playEvents_frame
  have h := s.playEvents.advancePos_pos_toInt
  rwa [f.endTick, f.pos, f.repeatTick] at h

/-- Ticks leave the ends of the loop. -/
theorem State.iterate_tick_loop (s : State) (k : Nat) :
    (State.tick^[k] s).endTick = s.endTick ∧ (State.tick^[k] s).repeatTick = s.repeatTick := by
  induction k with
  | zero => exact ⟨rfl, rfl⟩
  | succ k ih =>
    obtain ⟨hend, hrepeat⟩ := ih
    have f := (State.tick^[k] s).playEvents_frame
    rw [Function.iterate_succ_apply']
    exact ⟨f.endTick.trans hend, f.repeatTick.trans hrepeat⟩

/-- The position that tick k from position 0 reads, of a loop from R to E (R164). -/
def timelineAt (R E : Int) (k : Nat) : Int :=
  if (k : Int) < max 1 E then (k : Int)
  else if R < E then R + ((k : Int) - max 1 E) % (E - R)
  else R

/-- The first pass: 0 to E - 1, or 0 alone if E is not above 1. -/
theorem timelineAt_of_lt {R E : Int} {k : Nat} (h : (k : Int) < max 1 E) : timelineAt R E k = k := if_pos h

/-- The later passes of a loop: R to E - 1, round and round. -/
theorem timelineAt_of_loop {R E : Int} {k : Nat} (h : max 1 E ≤ (k : Int)) (hloop : R < E) :
    timelineAt R E k = R + ((k : Int) - max 1 E) % (E - R) := by
  rw [timelineAt, if_neg (by omega), if_pos hloop]

/-- After the first pass with R at or above E: R for ever. -/
theorem timelineAt_of_hold {R E : Int} {k : Nat} (h : max 1 E ≤ (k : Int)) (hhold : E ≤ R) : timelineAt R E k = R := by
  rw [timelineAt, if_neg (by omega), if_neg (by omega)]

theorem timelineAt_zero (R E : Int) : timelineAt R E 0 = 0 := timelineAt_of_lt (by omega)

/-- A remainder counts up, and starts again at the divisor. -/
theorem add_one_emod {d : Int} (hd : 0 < d) (m : Int) : (m + 1) % d = if d ≤ m % d + 1 then 0 else m % d + 1 := by
  have hlo := Int.emod_nonneg m hd.ne'
  have hhi := Int.emod_lt_of_pos m hd
  rw [← Int.emod_add_emod]
  split_ifs with h
  · rw [show m % d + 1 = d by omega, Int.emod_self]
  · exact Int.emod_eq_of_lt (by omega) (by omega)

/-- The positions R164 gives follow the rule of R163. -/
theorem timelineAt_succ (R E : Int) (k : Nat) :
    timelineAt R E (k + 1) = if E ≤ timelineAt R E k + 1 then R else timelineAt R E k + 1 := by
  rcases lt_trichotomy ((k : Int) + 1) (max 1 E) with hbefore | hlast | hafter
  · rw [timelineAt_of_lt (k := k) (by omega), timelineAt_of_lt (by omega), if_neg (by omega), Nat.cast_succ]
  · rw [timelineAt_of_lt (k := k) (by omega), if_pos (by omega)]
    rcases lt_or_ge R E with hloop | hhold
    · rw [timelineAt_of_loop (by omega) hloop, Nat.cast_succ, hlast, sub_self, Int.zero_emod, add_zero]
    · exact timelineAt_of_hold (by omega) hhold
  · rcases lt_or_ge R E with hloop | hhold
    · have hsucc : ((k + 1 : Nat) : Int) - max 1 E = k - max 1 E + 1 := by omega
      rw [timelineAt_of_loop (by omega) hloop, timelineAt_of_loop (by omega) hloop, hsucc, add_one_emod (by omega)]
      split_ifs <;> omega
    · rw [timelineAt_of_hold (by omega) hhold, timelineAt_of_hold (by omega) hhold, if_pos (by omega)]

/-- Settles O35: by induction, for both follow the rule of R163 from position 0. -/
theorem timelinePositions : Obligations.TimelinePositions := by
  intro s k hpos
  change _ = timelineAt s.repeatTick.toInt s.endTick.toInt k
  induction k with
  | zero => rw [timelineAt_zero, Function.iterate_zero_apply, hpos]; rfl
  | succ k ih =>
    obtain ⟨hend, hrepeat⟩ := s.iterate_tick_loop k
    rw [Function.iterate_succ_apply', State.tick_pos_toInt, hend, hrepeat, ih, timelineAt_succ]

/-! ## The position stays inside the loop (R164) -/

/-- In configuration mode nothing is claimed of the position. -/
theorem State.TimelineLegal.of_not_ready {s : State} (hr : s.ready = false) : s.TimelineLegal :=
  fun h => absurd (hr.symm.trans h) nofun

/-- An advance wraps to R, which is inside the loop, or goes to a position still below its end (R163). -/
theorem State.TimelineLegal.advancePos {s : State} (h : s.TimelineLegal) : s.advancePos.TimelineLegal := by
  intro hr hend (hrepeat : 0 ≤ s.repeatTick.toInt) (hloop : s.repeatTick.toInt < s.endTick.toInt)
  obtain ⟨hlo, hhi⟩ := h hr hend hrepeat hloop
  rw [State.advancePos_pos_toInt, State.advancePos_endTick]
  split_ifs <;> omega

/-- The invariant reads the position, READY and the ends of the loop. -/
theorem State.TimelineLegal.congr {s u : State} (h : s.TimelineLegal) (hready : u.ready = s.ready)
    (hend : u.endTick = s.endTick) (hrepeat : u.repeatTick = s.repeatTick) (hpos : u.pos = s.pos) :
    u.TimelineLegal := by
  unfold State.TimelineLegal
  rw [hready, hend, hrepeat, hpos]
  exact h

theorem State.TimelineLegal.of_eventFrame {s u : State} (h : s.TimelineLegal) (f : EventFrame s u) :
    u.TimelineLegal := h.congr f.ready f.endTick f.repeatTick f.pos

/-- A tick check leaves the position, or plays the event words and advances it (R150). -/
theorem State.TimelineLegal.tickCheck {s : State} (h : s.TimelineLegal) : s.tickCheck.TimelineLegal := by
  rw [State.tickCheck_eq]
  split_ifs
  · exact (h.of_eventFrame s.playEvents_frame).advancePos.congr rfl rfl rfl rfl
  · exact h

theorem State.TimelineLegal.renderFrame {s : State} (h : s.TimelineLegal) : s.renderFrame.TimelineLegal := by
  obtain ⟨vs, l, r, hframe, -⟩ := s.renderFrame_spec
  rw [hframe]
  exact h.tickCheck

/-- ARM starts at position 0, which is inside every well-formed loop (R130). -/
theorem State.armInit_timelineLegal (s : State) : s.armInit.TimelineLegal :=
  fun _ hend _ _ => ⟨le_rfl, hend⟩

theorem State.TimelineLegal.exec {i : Instr} {s u : State} (hs : s.TimelineLegal) (h : exec i s = .next u) :
    u.TimelineLegal := by
  apply exec_induction h State.TimelineLegal
  case badRead | raise => intros; rw [State.raiseError_eq]; exact hs
  case store => intro x d hr _ _; rw [State.storeTarget_frame]; exact .of_not_ready hr
  case arm => exact fun _ => s.armInit_timelineLegal
  case disarm => exact .of_not_ready rfl
  case frame => exact fun _ => hs.renderFrame
  case event => exact fun t w => hs.of_eventFrame (s.runEvent_frame t w)
  case evPan => intro t trig p; rw [State.runEvPan, State.eventCommon_frame]; exact hs
  case evRsvd =>
    intro t trig p
    rw [State.runEvRsvd, State.raiseError_eq, State.eventCommon_frame]
    exact hs
  all_goals intros; exact hs

/-- Settles O53: only ARM and a tick move the position, and no store reaches the loop of a playing block. -/
theorem stepKeepsTimelineLegal : Obligations.StepKeepsTimelineLegal :=
  fun _ _ hs h => step_induction State.TimelineLegal hs h (fun _ _ _ _ _ hs => hs) (fun _ _ => .of_not_ready rfl)
    (fun _ _ => .of_not_ready rfl) (fun _ _ _ hs => hs.exec)

/-! ## The tick period (R150) -/

/-- A frame leaves READY and SPT, and reloads the countdown where a tick is due, or takes 1 from it (R150). -/
theorem State.renderFrame_countdown (s : State) :
    s.renderFrame.ready = s.ready ∧ s.renderFrame.spt = s.spt ∧
      s.renderFrame.cd = if s.cd = 0 then s.spt - 1 else s.cd - 1 := by
  obtain ⟨vs, l, r, hframe, -⟩ := s.renderFrame_spec
  have f := s.playEvents_frame
  rw [hframe]
  rcases s.tickCheck_cases with ⟨hcd, hcheck⟩ | ⟨hcd, hcheck⟩ <;> rw [hcheck]
  · exact ⟨f.ready, f.spt, (if_pos hcd).symm⟩
  · exact ⟨rfl, rfl, (if_neg hcd).symm⟩

/-- The countdown that frame k from a due tick finds, at S frames a tick (R150). -/
def countdownAt (S k : Nat) : Nat := (S - k % S) % S

/-- The countdown is at 0 where S divides k, and else what is left of the S frames. -/
theorem countdownAt_eq {S : Nat} (hS : 1 ≤ S) (k : Nat) :
    countdownAt S k = if k % S = 0 then 0 else S - k % S := by
  unfold countdownAt
  split_ifs with hk
  · rw [hk, Nat.sub_zero, Nat.mod_self]
  · exact Nat.mod_eq_of_lt (by omega)

theorem countdownAt_eq_zero_iff {S : Nat} (hS : 1 ≤ S) (k : Nat) : countdownAt S k = 0 ↔ k % S = 0 := by
  have hlt := Nat.mod_lt k hS
  rw [countdownAt_eq hS]
  split_ifs <;> omega

/-- The countdown of the next frame: reloaded on a tick, else one less. -/
theorem countdownAt_succ {S : Nat} (hS : 1 ≤ S) (k : Nat) :
    countdownAt S (k + 1) = if countdownAt S k = 0 then S - 1 else countdownAt S k - 1 := by
  have hlt := Nat.mod_lt k hS
  have hnext : (k + 1) % S = if S ≤ k % S + 1 then 0 else k % S + 1 := by
    exact_mod_cast add_one_emod (d := S) (by omega) k
  simp only [countdownAt_eq_zero_iff hS]
  rw [countdownAt_eq hS, countdownAt_eq hS]
  split_ifs at hnext ⊢ <;> omega

/-- What frame k from a due tick finds (R150). -/
theorem State.iterate_renderFrame_countdown {s : State} (hr : s.ready = true) (hcd : s.cd = 0)
    (hspt : 1 ≤ s.spt.toNat) (k : Nat) :
    (State.renderFrame^[k] s).ready = true ∧ (State.renderFrame^[k] s).spt = s.spt ∧
      (State.renderFrame^[k] s).cd.toNat = countdownAt s.spt.toNat k := by
  induction k with
  | zero =>
    have hdue : countdownAt s.spt.toNat 0 = 0 := (countdownAt_eq_zero_iff hspt 0).2 (Nat.zero_mod _)
    rw [Function.iterate_zero_apply, hdue, hcd]
    exact ⟨hr, rfl, rfl⟩
  | succ k ih =>
    obtain ⟨hready, hrate, hcount⟩ := ih
    obtain ⟨hready', hrate', hcount'⟩ := (State.renderFrame^[k] s).renderFrame_countdown
    rw [Function.iterate_succ_apply']
    refine ⟨hready'.trans hready, hrate'.trans hrate, ?_⟩
    rw [hcount', hrate, countdownAt_succ hspt, ← hcount]
    split_ifs <;> bv_omega

/-- Settles O39: the frames between two ticks are counted by the countdown. -/
theorem tickEverySptFrames : Obligations.TickEverySptFrames := by
  refine ⟨State.tickCheck_eq, fun s k hr hcd hspt => ?_⟩
  obtain ⟨hready, -, hcount⟩ := State.iterate_renderFrame_countdown hr hcd hspt k
  refine ⟨?_, hcount, ?_⟩
  · rw [exec_frame_of_ready hready, Function.iterate_succ_apply']
  · rw [← countdownAt_eq_zero_iff hspt, ← hcount]
    exact BitVec.toNat_eq (y := 0#64)

end Sys2Proof.Machine

/-! The melodic voice family (spec/42_melodic_voice.md): how long the voice timer keeps a slot LIVE (R180), the envelope
index as a floor (R182), the value of a melodic slot (R181 to R189), and the ranges of contributions (R190, R206). -/

namespace Sys2Proof.Machine

/-! ## The voice timer (R180) -/

/-- A timer step answers LIVE exactly if the timer is above TINC, whether or not the timer was positive. -/
theorem timerStep_live_iff (tinc : Word) (v : Voice) : (timerStep tinc v).2 = true ↔ tinc.toNat < v.timer.toInt := by
  rcases timerStep_cases tinc v with ⟨hskip, hstep⟩ | ⟨-, -, -, -, hlive⟩
  · rw [hstep]
    simp only [Bool.false_eq_true, false_iff]
    omega
  · rw [hlive, decide_eq_true_iff]
    omega

/-- A timer step lowers a positive timer by TINC and leaves the others, so a threshold from 0 up is passed after it
exactly if one higher by TINC is passed before it. -/
theorem lt_timerStep_timer_iff (tinc : Word) (v : Voice) (c : Nat) :
    (c : Int) < (timerStep tinc v).1.timer.toInt ↔ (c : Int) + tinc.toNat < v.timer.toInt := by
  rcases timerStep_cases tinc v with ⟨hskip, hstep⟩ | ⟨-, -, -, htimer, -⟩
  · simp only [hstep]
    omega
  · rw [htimer]
    omega

theorem lt_iterate_timerStep_timer_iff (tinc : Word) (v : Voice) (k c : Nat) :
    (c : Int) < ((fun w => (timerStep tinc w).1)^[k] v).timer.toInt ↔
      (c : Int) + k * tinc.toNat < v.timer.toInt := by
  induction k generalizing c with
  | zero => simp
  | succ k ih =>
    have hthreshold : ((c + tinc.toNat : Nat) : Int) + k * tinc.toNat = c + (k + 1 : Nat) * tinc.toNat := by
      push_cast; ring
    rw [Function.iterate_succ_apply', lt_timerStep_timer_iff, ← Nat.cast_add, ih, hthreshold]

/-- Settles O40: the timer's two branches, and its law for k steps, by induction on the steps. -/
theorem noteSoundsWhileTimerLasts : Obligations.NoteSoundsWhileTimerLasts := by
  refine ⟨fun tinc v hskip => if_pos hskip, fun tinc v hpos => ⟨?_, timerStep_toInt tinc v hpos, ?_⟩,
    fun _ _ _ => State.slotStep_skip, fun tinc v k _ => ?_⟩
  · rw [timerStep, if_neg (by omega)]
  · rw [timerStep_live_iff]
    omega
  · rw [timerStep_live_iff, lt_iterate_timerStep_timer_iff, add_mul, one_mul]
    omega

/-! ## The envelope index (R182) -/

/-- The index of a live timer below the whole note needs no clamp (R182). -/
theorem envIndex_eq {length : Word} {timer : BitVec 48} (hpos : 0 < timer.toInt)
    (hlt : timer.toInt < length.toInt * 65536) :
    (envIndex length timer : Int) = 64 * (length.toInt * 65536 - timer.toInt) / (length.toInt * 65536) ∧
      envIndex length timer ≤ 63 := by
  have hlen : 0 < length.toInt * 65536 := by omega
  have hlo : 0 ≤ 64 * (length.toInt * 65536 - timer.toInt) / (length.toInt * 65536) :=
    Int.ediv_nonneg (by omega) hlen.le
  have hhi : 64 * (length.toInt * 65536 - timer.toInt) / (length.toInt * 65536) < 64 :=
    Int.ediv_lt_of_lt_mul hlen (by omega)
  have hclamp := clamp_of_mem hlo (by omega : _ ≤ (63 : Int))
  simp only [envIndex, hclamp]
  omega

/-- Integer division by a positive number is the floor of the rational quotient. -/
theorem ediv_eq_floor (x : Int) {d : Int} (hd : 0 < d) : x / d = ⌊(x : ℚ) / (d : ℚ)⌋ := by
  rw [Int.floor_div_cast_of_nonneg hd.le, Int.floor_intCast]

/-- Settles O41: the exact quotient lies in [0, 64), and integer division is its floor. -/
theorem envelopeIndexInRange : Obligations.EnvelopeIndexInRange := by
  intro length timer hpos hlt
  obtain ⟨hindex, hle⟩ := envIndex_eq hpos hlt
  refine ⟨?_, hle⟩
  rw [hindex, ediv_eq_floor _ (by omega)]
  push_cast
  rfl

/-! ## The value of a melodic slot (R181 to R189) -/

/-- `x >> k` is the floor of the exact quotient (R13). -/
theorem floorShift_eq_floor (x : Int) (k : Nat) : floorShift x k = ⌊(x : ℚ) / 2 ^ k⌋ := by
  rw [floorShift, ediv_eq_floor x (by positivity)]
  push_cast
  rfl

theorem tap0_eq (phase : Word) : tap0 phase = phase.toNat / 2 ^ 24 := by
  have := phase.isLt
  rw [tap0, BitVec.extractLsb'_toNat, Nat.shiftRight_eq_div_pow]
  omega

theorem tap1_eq (octave : BitVec 8) (phase : Word) :
    tap1 octave phase = (phase.toNat / 2 ^ 24 + 2 ^ octave.toNat) % 256 := by
  rw [tap1, tap0_eq, Nat.add_mod_mod]

theorem phaseFraction_eq (phase : Word) : phaseFraction phase = phase.toNat / 2 ^ 8 % 2 ^ 16 := by
  rw [phaseFraction, BitVec.extractLsb'_toNat, Nat.shiftRight_eq_div_pow]

theorem phaseFraction_lt (phase : Word) : phaseFraction phase < 65536 := BitVec.isLt _

/-- The phase advances by the exact step and wraps at 2^32 (R184, R185). -/
theorem add_phaseStep_toNat (phase : Word) (p : Params) (octave : BitVec 8) (rate : Word) (n : Slot) :
    (phase + phaseStep p octave rate n).toNat =
      (phase.toNat + baseStep p.freqTable octave n * p.refRate / rate.toNat) % 2 ^ 32 := by
  rw [phaseStep, BitVec.toNat_add, BitVec.toNat_ofNat, Nat.add_mod_mod]

/-- Settles O42: the voice's phase, taps, fraction and envelope byte as numbers, and each channel's shift as a floor. -/
theorem melodicVoiceValue : Obligations.MelodicVoiceValue := by
  intro s m n v ph i0 i1 fr e w0 w1 _ hlive hph hi0 hi1 hfr hw0 hw1 he
  have hnat : (v.phase + phaseStep s.params s.octave[m] s.sampleRate n).toNat = ph :=
    (add_phaseStep_toNat ..).trans hph.symm
  have hphase : BitVec.ofNat 32 ph = v.phase + phaseStep s.params s.octave[m] s.sampleRate n := by
    rw [← hnat, BitVec.ofNat_toNat, BitVec.setWidth_eq]
  rw [State.slotStep_melodic (by rw [hlive]), hlive, hphase]
  simp only [State.melodicVoice, melodicMix, floorShift_eq_floor, interp, tap0_eq, tap1_eq, phaseFraction_eq, hnat,
    State.waveRead, State.envRead, waveAddr, envAddr, ← hi0, ← hi1, ← hfr, ← hw0, ← hw1, ← he]
  norm_num

/-! ## The ranges of the contributions (R190, R206, R227) -/

/-- The Q8.16 numbers between two sample bytes (R188, R203). -/
def SampleRange (x : Int) : Prop := -128 * 65536 ≤ x ∧ x ≤ 127 * 65536

/-- An interpolation lies between its taps. -/
theorem interp_sampleRange {w0 w1 : Int} {fr : Nat} (h0 : -128 ≤ w0 ∧ w0 ≤ 127) (h1 : -128 ≤ w1 ∧ w1 ≤ 127)
    (hfr : fr < 65536) : SampleRange (interp w0 w1 fr) := by
  obtain ⟨hlo0, hhi0⟩ := h0
  obtain ⟨hlo1, hhi1⟩ := h1
  have hweights : interp w0 w1 fr = w0 * (65536 - fr) + w1 * fr := by unfold interp; ring
  have hweight0 : (0 : Int) ≤ 65536 - fr := by omega
  have hweight1 : (0 : Int) ≤ fr := by omega
  unfold SampleRange
  rw [hweights]
  constructor
  · linarith [mul_le_mul_of_nonneg_right hlo0 hweight0, mul_le_mul_of_nonneg_right hlo1 hweight1]
  · linarith [mul_le_mul_of_nonneg_right hhi0 hweight0, mul_le_mul_of_nonneg_right hhi1 hweight1]

theorem State.waveRead_bounds (s : State) (m : Melodic) (i : Nat) : -128 ≤ s.waveRead m i ∧ s.waveRead m i ≤ 127 := by
  have hlo := BitVec.le_toInt (x := s.ramByte (waveAddr m i))
  have hhi := BitVec.toInt_lt (x := s.ramByte (waveAddr m i))
  unfold State.waveRead
  omega

theorem State.envRead_bounds (s : State) (m : Melodic) (i : Nat) : 0 ≤ s.envRead m i ∧ s.envRead m i ≤ 255 := by
  have := (s.ramByte (envAddr m i)).isLt
  unfold State.envRead
  omega

theorem drumFetch_bounds (drum : List Byte) (ip : Nat) :
    (-128 ≤ (drumFetch drum ip).1 ∧ (drumFetch drum ip).1 ≤ 127) ∧
      (-128 ≤ (drumFetch drum ip).2 ∧ (drumFetch drum ip).2 ≤ 127) := by
  have h0 := (drum.getD ip 128).isLt
  have h1 := (drum.getD (ip + 1) 128).isLt
  unfold drumFetch
  omega

/-- A sample scaled by a factor in [0, G], and floored. -/
theorem floorShift_mul_bounds {x g G lo hi : Int} {k : Nat} (hx : SampleRange x) (hg : 0 ≤ g) (hG : g ≤ G)
    (hlo : lo * 2 ^ k ≤ -128 * 65536 * G) (hhi : 127 * 65536 * G ≤ hi * 2 ^ k) :
    lo ≤ floorShift (x * g) k ∧ floorShift (x * g) k ≤ hi := by
  obtain ⟨hxlo, hxhi⟩ := hx
  constructor
  · refine Int.le_ediv_of_mul_le (by positivity) ?_
    calc lo * 2 ^ k ≤ -128 * 65536 * G := hlo
      _ ≤ -128 * 65536 * g := by omega
      _ ≤ x * g := mul_le_mul_of_nonneg_right hxlo hg
  · refine Int.ediv_le_of_le_mul (by positivity) ?_
    calc x * g ≤ 127 * 65536 * g := mul_le_mul_of_nonneg_right hxhi hg
      _ ≤ 127 * 65536 * G := by omega
      _ ≤ hi * 2 ^ k := hhi

/-- The product of two gains up to unity is up to unity, 2^30. -/
theorem gain_mul_le {g pan : BitVec 16} (hg : g.toNat ≤ 32768) (hpan : pan.toNat ≤ 32768) :
    g.toNat * pan.toNat ≤ 2 ^ 30 :=
  (Nat.mul_le_mul hg hpan).trans (by decide)

/-- The bounds of a melodic channel are 255 times the lowest and the highest sample byte (R190). -/
theorem melodicMix_bounds {x e : Int} {vmix pan : BitVec 16} (hx : SampleRange x) (he : 0 ≤ e ∧ e ≤ 255)
    (hvmix : vmix.toNat ≤ 32768) (hpan : pan.toNat ≤ 32768) :
    -32640 ≤ melodicMix x e vmix pan ∧ melodicMix x e vmix pan ≤ 32385 := by
  obtain ⟨helo, hehi⟩ := he
  have hgain : ((vmix.toNat * pan.toNat : Nat) : Int) ≤ 2 ^ 30 := by exact_mod_cast gain_mul_le hvmix hpan
  have hscaled : e * (vmix.toNat * pan.toNat : Nat) ≤ 255 * 2 ^ 30 :=
    mul_le_mul hehi hgain (by positivity) (by decide)
  have hassoc : x * e * vmix.toNat * pan.toNat = x * (e * (vmix.toNat * pan.toNat : Nat)) := by push_cast; ring
  rw [melodicMix, hassoc]
  exact floorShift_mul_bounds hx (by positivity) hscaled (by decide) (by decide)

/-- The bounds of a percussion channel are 256 times the lowest and the highest centred drum byte (R206). -/
theorem percussionMix_bounds {x : Int} {g pan : BitVec 16} (hx : SampleRange x) (hg : g.toNat ≤ 32768)
    (hpan : pan.toNat ≤ 32768) : -32768 ≤ percussionMix x g pan ∧ percussionMix x g pan ≤ 32512 := by
  have hgain : ((g.toNat * pan.toNat : Nat) : Int) ≤ 2 ^ 30 := by exact_mod_cast gain_mul_le hg hpan
  have hassoc : x * g.toNat * pan.toNat = x * (g.toNat * pan.toNat : Nat) := by push_cast; ring
  rw [percussionMix, hassoc]
  exact floorShift_mul_bounds hx (by positivity) hgain (by decide) (by decide)

theorem State.GainsLegal.drumGain {s : State} (h : s.GainsLegal) (n : Slot) : (s.drumGain n).toNat ≤ 32768 := by
  obtain ⟨htracks, hlow⟩ := h
  unfold State.drumGain
  split
  · exact hlow
  · exact (htracks percussion).1

/-- Only a LIVE slot contributes (R180). -/
theorem State.live_of_contributes {s : State} {t : Track} {n : Slot} {c : Int × Int}
    (h : (s.slotStep t n).2 = some c) : (timerStep s.tinc (s.voice t n)).2 = true := by
  by_contra hskip
  rw [State.slotStep_skip (Bool.not_eq_true _ ▸ hskip)] at h
  cases h

/-- What a melodic slot contributes, if it does: a sample, scaled by an envelope byte and the track's gains. -/
theorem State.slotStep_melodic_some {s : State} {m : Melodic} {n : Slot} {c : Int × Int}
    (h : (s.slotStep m.track n).2 = some c) :
    ∃ x e, SampleRange x ∧ (0 ≤ e ∧ e ≤ 255) ∧
      c = (melodicMix x e s.vmix[m.track] s.vl[m.track], melodicMix x e s.vmix[m.track] s.vr[m.track]) := by
  rw [State.slotStep_melodic (State.live_of_contributes h)] at h
  cases h
  exact ⟨_, _, interp_sampleRange (s.waveRead_bounds ..) (s.waveRead_bounds ..) (phaseFraction_lt _),
    s.envRead_bounds .., rfl⟩

/-- What a percussion slot contributes, if it does: a sample, scaled by the slot's gain and the track's pan. -/
theorem State.slotStep_percussion_some {s : State} {n : Slot} {c : Int × Int}
    (h : (s.slotStep percussion n).2 = some c) :
    ∃ x, SampleRange x ∧
      c = (percussionMix x (s.drumGain n) s.vl[percussion], percussionMix x (s.drumGain n) s.vr[percussion]) := by
  rw [State.slotStep_percussion (State.live_of_contributes h)] at h
  obtain ⟨-, hc⟩ := Option.ite_none_left_eq_some.1 h
  cases hc
  obtain ⟨h0, h1⟩ := drumFetch_bounds (s.drumSample n) _
  exact ⟨_, interp_sampleRange h0 h1 (Nat.mod_lt _ (by decide)), rfl⟩

/-- Settles O44: the sample, the envelope byte and the gains are bounded, hence so is their floored product. -/
theorem contributionRange : Obligations.ContributionRange := by
  intro s hs
  have ⟨htracks, _⟩ := hs
  constructor
  · intro m n c hc
    obtain ⟨x, e, hx, he, rfl⟩ := State.slotStep_melodic_some hc
    obtain ⟨hvmix, hvl, hvr⟩ := htracks m.track
    obtain ⟨hllo, hlhi⟩ := melodicMix_bounds hx he hvmix hvl
    exact ⟨hllo, hlhi, melodicMix_bounds hx he hvmix hvr⟩
  · intro n c hc
    obtain ⟨x, hx, rfl⟩ := State.slotStep_percussion_some hc
    obtain ⟨-, hvl, hvr⟩ := htracks percussion
    obtain ⟨hllo, hlhi⟩ := percussionMix_bounds hx (hs.drumGain n) hvl
    exact ⟨hllo, hlhi, percussionMix_bounds hx (hs.drumGain n) hvr⟩

end Sys2Proof.Machine

/-! The percussion voice family (spec/43_percussion_voice.md): the value of a percussion slot (R200 to R205), and that a
LIVE one always passes the end check (R201, R207). -/

namespace Sys2Proof.Machine

/-! ## The end check (R201) -/

/-- The interpolated drum sample of a percussion slot at a position (R202, R203). -/
def State.drumValue (s : State) (n : Slot) (pos : Nat) : Int :=
  interp (drumFetch (s.drumSample n) (pos / 2 ^ 16)).1 (drumFetch (s.drumSample n) (pos / 2 ^ 16)).2 (pos % 2 ^ 16)

theorem State.percussionVoice_of_past {s : State} {n : Slot} {v : Voice}
    (h : s.drumLen n ≤ (s.percussionVoice n v).1.fphase.toNat / 65536) : (s.percussionVoice n v).2 = none :=
  if_pos h

theorem State.percussionVoice_of_inside {s : State} {n : Slot} {v : Voice}
    (h : (s.percussionVoice n v).1.fphase.toNat / 65536 < s.drumLen n) :
    (s.percussionVoice n v).2 =
      some (percussionMix (s.drumValue n (s.percussionVoice n v).1.fphase.toNat) (s.drumGain n) s.vl[percussion],
        percussionMix (s.drumValue n (s.percussionVoice n v).1.fphase.toNat) (s.drumGain n) s.vr[percussion]) :=
  if_neg (Nat.not_le.2 h)

/-- Settles O45: after the step the timer, still positive, and the position add up to the length of the sample, so the
position is inside it (R207). -/
theorem liveDrumPassesEndCheck : Obligations.LiveDrumPassesEndCheck := by
  intro s n hready hvalid hdrum hlive
  obtain ⟨hsum, -⟩ := State.slotStep_onDrum hvalid n (hdrum hready n)
  have htimer := (lt_timerStep_timer_iff s.tinc (s.voice percussion n) 0).2 (by
    simpa using (timerStep_live_iff ..).1 hlive)
  rw [State.slotStep_percussion hlive] at hsum ⊢
  have hsum := hsum htimer
  rw [State.percussionVoice_timer] at hsum
  exact ⟨_, State.percussionVoice_of_inside (by omega)⟩

/-! ## The value of a percussion slot (R200 to R205) -/

theorem State.drumSample_of_getElem? {s : State} {n : Slot} {drum : List Byte}
    (h : s.params.drums[s.params.drumMap[n]]? = some drum) : s.drumSample n = drum := by
  rw [State.drumSample, List.getD_eq_getElem?_getD, h, Option.getD_some]

/-- A centred drum byte, which is the zero level past the end (R202). -/
theorem centredByte_eq (drum : List Byte) (i : Nat) :
    ((drum.getD i 128).toNat : Int) - 128 = if h : i < drum.length then (drum[i].toNat : Int) - 128 else 0 := by
  split
  case isTrue h => rw [List.getD_eq_getElem _ _ h]
  case isFalse h => rw [List.getD_eq_default _ _ (Nat.not_lt.1 h)]; rfl

theorem drumFetch_eq (drum : List Byte) (ip : Nat) :
    drumFetch drum ip =
      (if h : ip < drum.length then (drum[ip].toNat : Int) - 128 else 0,
        if h : ip + 1 < drum.length then (drum[ip + 1].toNat : Int) - 128 else 0) :=
  Prod.ext (centredByte_eq drum ip) (centredByte_eq drum (ip + 1))

theorem State.drumGain_toNat (s : State) (n : Slot) :
    (s.drumGain n).toNat = if n.val % 2 = 1 then s.vmixLow.toNat else s.vmix[percussion].toNat :=
  apply_ite ..

/-- Settles O43: the position does not wrap, the two sides of the end check, and each channel's shift as a floor. -/
theorem percussionVoiceValue : Obligations.PercussionVoiceValue := by
  intro s n v pos ip fr drum s0 s1 hlive hpos hlt hip hfr hdrum
  have hstep : s.slotStep percussion n = s.percussionVoice n v := by
    rw [State.slotStep_percussion (by rw [hlive]), hlive]
  have hvoice : (s.percussionVoice n v).1 = { v with fphase := BitVec.ofNat 48 pos } := by rw [hpos]; rfl
  have hnat : (s.percussionVoice n v).1.fphase.toNat = pos := by
    rw [hvoice, BitVec.toNat_ofNat, Nat.mod_eq_of_lt hlt]
  have hlen := State.drumLen_of_getElem? hdrum
  rw [hstep]
  refine ⟨fun hpast => Prod.ext hvoice ?_, fun hin hs0 hs1 => Prod.ext hvoice ?_⟩
  · exact State.percussionVoice_of_past (by omega)
  · have hvalue : s.drumValue n pos = s0 * 2 ^ 16 + (s1 - s0) * fr := by
      rw [State.drumValue, State.drumSample_of_getElem? hdrum, ← hip, ← hfr, drumFetch_eq, dif_pos hin, ← hs0, ← hs1]
      rfl
    rw [State.percussionVoice_of_inside (by omega), hnat, hvalue]
    simp only [percussionMix, floorShift_eq_floor, ← State.drumGain_toNat]
    push_cast
    rfl

end Sys2Proof.Machine

/-! The mixer family (spec/44_mixer.md): what a frame leaves unchanged (R229, R249), and that it does not read the tables
of a track that is silent (R229). -/

namespace Sys2Proof.Machine

/-! ## What a frame leaves unchanged (R133, R229, R249) -/

/-- Besides the timeline and the countdown, a tick check reaches only what its event words reach (R150). -/
theorem State.tickCheck_frame (s : State) :
    EventFrame { s with pos := s.tickCheck.pos, cd := s.tickCheck.cd } s.tickCheck := by
  rcases s.tickCheck_cases with ⟨-, hcheck⟩ | ⟨-, hcheck⟩ <;> rw [hcheck]
  · exact { s.playEvents_frame with pos := rfl, cd := rfl }
  · exact EventFrame.refl _

/-- From s to u no error was raised but cause 5: the record is that of s, or s held none and u holds cause 5 (R241,
R249). -/
def RaisesOnlyPan (s u : State) : Prop :=
  u.errCause = s.errCause ∧ u.errInfo = s.errInfo ∨ s.errCause = 0 ∧ u.errCause = 5 ∧ u.errPan = true

theorem RaisesOnlyPan.refl (s : State) : RaisesOnlyPan s s := .inl ⟨rfl, rfl⟩

theorem RaisesOnlyPan.raiseError_pan {s u : State} (h : RaisesOnlyPan s u) (info : Word) :
    RaisesOnlyPan s (u.raiseError .pan info) := by
  have hflag : (u.raiseError .pan info).errPan = true := by simp
  by_cases hu : u.errCause = 0
  case pos =>
    obtain ⟨hcause, -⟩ := State.raiseError_fills_record hu .pan info
    rcases h with ⟨hsame, -⟩ | ⟨-, hfive, -⟩
    · exact .inr ⟨hsame.symm.trans hu, hcause, hflag⟩
    · exact absurd (hu.symm.trans hfive) (by decide)
  case neg =>
    obtain ⟨hcause, hinfo⟩ := State.raiseError_keeps_record hu .pan info
    rcases h with ⟨hsame, hsame'⟩ | ⟨hempty, hfive, -⟩
    · exact .inl ⟨hcause.trans hsame, hinfo.trans hsame'⟩
    · exact .inr ⟨hempty, hcause.trans hfive, hflag⟩

/-- Of the event words only EV.RSVD raises an error, that of cause 5 (R162). -/
theorem RaisesOnlyPan.runEvent {s u : State} (h : RaisesOnlyPan s u) (t : Track) (w : Word) :
    RaisesOnlyPan s (u.runEvent t w) := by
  have hcommon : RaisesOnlyPan s (u.eventCommon t (eventTrig w)) := by rwa [State.eventCommon_frame]
  rcases u.runEvent_cases t w with ⟨-, hev⟩ | ⟨-, -, hevPan⟩ | ⟨-, hevRsvd⟩
  · rwa [hev]
  · rwa [hevPan]
  · rw [hevRsvd]
    exact hcommon.raiseError_pan _

theorem State.tickCheck_raisesOnlyPan (s : State) : RaisesOnlyPan s s.tickCheck := by
  rcases s.tickCheck_cases with ⟨-, hcheck⟩ | ⟨-, hcheck⟩ <;> rw [hcheck]
  · exact s.playEvents_induction (RaisesOnlyPan s) (fun _ t w hu => hu.runEvent t w) (.refl s)
  · exact .refl s

/-- Settles O38: the score is locked, and of the rest only the tick check reaches what the statement names. -/
theorem frameLeavesTheRest : Obligations.FrameLeavesTheRest := by
  intro s hr
  obtain ⟨vs, l, r, hframe, -⟩ := s.renderFrame_spec
  have hexec := (exec_frame_of_ready hr).trans (congrArg Host.Outcome.next hframe)
  have f := s.tickCheck_frame
  exact ⟨_, hexec, playingLocksTheScore _ _ _ hr hexec, f.ready.trans hr, f.tinc, f.spt, f.params, f.readData, f.inbox,
    f.errAddr, f.errLock, f.errCmd, f.errCfg, s.tickCheck_raisesOnlyPan⟩

/-! ## A state with other tables (R229)

The tables of a track are its WAVE, ENV, OCTAVE and LENGTH. To say that an operation does not read them is to say that it
does the same from the state with other ones. -/

/-- s with other RAM contents, OCTAVE and LENGTH. -/
def State.withTables (mem : List Host.Cell) (octave : Vector (BitVec 8) 3) (length : Vector Word 3) (s : State) :
    State := { s with mem := mem, octave := octave, length := length }

/-- s with other RAM contents and OCTAVE, and the LENGTH it has. -/
def State.withRam (mem : List Host.Cell) (octave : Vector (BitVec 8) 3) (s : State) : State :=
  s.withTables mem octave s.length

/-- u holds the RAM bytes of s but for the WAVE and ENV of track m. -/
def SameRamBut (m : Melodic) (s u : State) : Prop :=
  ∀ a, ¬ (waveAddr m 0 ≤ a ∧ a < waveAddr m 256) → ¬ (envAddr m 0 ≤ a ∧ a < envAddr m 64) → u.ramByte a = s.ramByte a

section
variable {m : Melodic} {s u : State}

theorem SameRamBut.noteRead (h : SameRamBut m s u) (t : Track) (j : Nat) : u.noteRead t j = s.noteRead t j := by
  have hbyte : ∀ k, u.ramByte (noteAddr t j + k) = s.ramByte (noteAddr t j + k) := fun k => by
    apply h <;> simp only [waveAddr, envAddr, noteAddr] <;> omega
  have hbyte₀ : u.ramByte (noteAddr t j) = s.ramByte (noteAddr t j) := hbyte 0
  simp only [State.noteRead, State.ramWord, hbyte, hbyte₀]

theorem SameRamBut.waveRead (h : SameRamBut m s u) {m' : Melodic} (hm : m' ≠ m) {i : Nat} (hi : i < 256) :
    u.waveRead m' i = s.waveRead m' i := by
  have hbyte : u.ramByte (waveAddr m' i) = s.ramByte (waveAddr m' i) := by
    have hval := Fin.val_ne_of_ne hm
    apply h <;> simp only [waveAddr, envAddr] <;> omega
  rw [State.waveRead, State.waveRead, hbyte]

theorem SameRamBut.envRead (h : SameRamBut m s u) {m' : Melodic} (hm : m' ≠ m) {i : Nat} (hi : i < 64) :
    u.envRead m' i = s.envRead m' i := by
  have hbyte : u.ramByte (envAddr m' i) = s.ramByte (envAddr m' i) := by
    have hval := Fin.val_ne_of_ne hm
    apply h <;> simp only [waveAddr, envAddr] <;> omega
  rw [State.envRead, State.envRead, hbyte]

end

section
variable (s : State) (mem : List Host.Cell) (octave : Vector (BitVec 8) 3) (length : Vector Word 3)

/-! ## Event words and the tick check read NOTE and LENGTH only (R150, R153 to R156) -/

theorem State.applyTriggers_withRam (t : Track) (trig : BitVec 24) :
    (s.withRam mem octave).applyTriggers t trig = (s.applyTriggers t trig).withRam mem octave := by
  refine List.foldl_hom (State.withRam mem octave) fun v n => ?_
  split_ifs <;> rfl

theorem State.eventCommon_withRam (t : Track) (trig : BitVec 24) :
    (s.withRam mem octave).eventCommon t trig = (s.eventCommon t trig).withRam mem octave := by
  rw [State.eventCommon, State.eventCommon, State.applyTriggers_withRam, State.recomputeGains_eq,
    State.recomputeGains_eq]
  rfl

theorem State.raiseError_withRam (c : ErrorCause) (info : Word) :
    (s.withRam mem octave).raiseError c info = (s.raiseError c info).withRam mem octave := by
  rw [State.raiseError_eq, State.raiseError_eq]
  rfl

theorem State.runEvent_withRam (t : Track) (w : Word) :
    (s.withRam mem octave).runEvent t w = (s.runEvent t w).withRam mem octave := by
  unfold State.runEvent
  split_ifs
  · exact s.eventCommon_withRam mem octave t _
  · rw [State.runEvPan, State.eventCommon_withRam]
    rfl
  · rw [State.runEvRsvd, State.eventCommon_withRam, State.raiseError_withRam]
    rfl

variable {s mem octave length}

theorem State.eventAt_of_noteRead {u : State} (hpos : u.pos = s.pos) (hcount : u.recordCount = s.recordCount)
    (hnote : ∀ t j, u.noteRead t j = s.noteRead t j) (t : Track) : u.eventAt t = s.eventAt t := by
  rw [State.eventAt, State.eventAt, hpos, hcount, hnote]

theorem State.playEvents_withRam (hnote : ∀ t j, (s.withRam mem octave).noteRead t j = s.noteRead t j) :
    (s.withRam mem octave).playEvents = s.playEvents.withRam mem octave := by
  rw [State.playEvents_eq, State.playEvents_eq]
  simp only [State.eventAt_of_noteRead (s := s) (u := s.withRam mem octave) rfl rfl hnote, State.runEvent_withRam]

theorem State.tick_eq_advancePos (s : State) : s.tick = s.playEvents.advancePos := rfl

/-- A tick check reads no table, but LENGTH where a tick is due. -/
theorem State.tickCheck_withTables (hlength : s.cd = 0 → length = s.length)
    (hnote : ∀ t j, (s.withTables mem octave length).noteRead t j = s.noteRead t j) :
    (s.withTables mem octave length).tickCheck = s.tickCheck.withTables mem octave length := by
  have hcd : (s.withTables mem octave length).cd = s.cd := rfl
  rw [State.tickCheck_eq, State.tickCheck_eq, hcd]
  split_ifs with hdue
  · obtain rfl := hlength hdue
    have hplay : (s.withTables mem octave s.length).playEvents = s.playEvents.withTables mem octave s.length := by
      refine (State.playEvents_withRam hnote).trans ?_
      rw [State.withRam, s.playEvents_frame.length]
    rw [State.tick_eq_advancePos, State.tick_eq_advancePos, hplay]
    generalize s.playEvents = v
    rfl
  · rfl

/-! ## The slots of a frame read the tables of LIVE melodic slots only (R181, R200, R229) -/

/-- The step of a slot that is not LIVE is its timer step (R180). -/
theorem State.slotStep_withTables_of_skip {t : Track} {n : Slot} (h : (timerStep s.tinc (s.voice t n)).2 = false) :
    (s.withTables mem octave length).slotStep t n = s.slotStep t n :=
  (State.slotStep_skip (s := s.withTables mem octave length) h).trans (State.slotStep_skip h).symm

theorem State.slotStep_percussion_withTables (n : Slot) :
    (s.withTables mem octave length).slotStep percussion n = s.slotStep percussion n := by
  cases hlive : (timerStep s.tinc (s.voice percussion n)).2 with
  | false => exact State.slotStep_withTables_of_skip hlive
  | true =>
    have hstep := State.slotStep_percussion (s := s.withTables mem octave length) hlive
    exact hstep.trans (State.slotStep_percussion hlive).symm

theorem tap0_lt (phase : Word) : tap0 phase < 256 := BitVec.isLt _

theorem tap1_lt (octave : BitVec 8) (phase : Word) : tap1 octave phase < 256 := Nat.mod_lt _ (by decide)

theorem envIndex_lt (length : Word) (timer : BitVec 48) : envIndex length timer < 64 := by
  have hclamp := clamp_bounds (64 * (length.toInt * 65536 - timer.toInt) / (length.toInt * 65536))
    (by decide : (0 : Int) ≤ 63)
  simp only [envIndex]
  omega

/-- A melodic slot reads the tables of its own track only (R182 to R186). -/
theorem State.slotStep_melodic_withTables {m m' : Melodic} (hm : m' ≠ m)
    (hram : SameRamBut m s (s.withTables mem octave length)) (hoctave : octave[m'] = s.octave[m'])
    (hlength : length[m'] = s.length[m']) (n : Slot) :
    (s.withTables mem octave length).slotStep m'.track n = s.slotStep m'.track n := by
  cases hlive : (timerStep s.tinc (s.voice m'.track n)).2 with
  | false => exact State.slotStep_withTables_of_skip hlive
  | true =>
    have hvoice : ∀ v, (s.withTables mem octave length).melodicVoice m' n v = s.melodicVoice m' n v := fun v => by
      simp only [State.melodicVoice, hram.waveRead hm (tap0_lt _), hram.waveRead hm (tap1_lt _ _),
        hram.envRead hm (envIndex_lt _ _)]
      simp only [State.withTables, hoctave, hlength]
    have hstep := State.slotStep_melodic (s := s.withTables mem octave length) hlive
    rw [hvoice] at hstep
    exact hstep.trans (State.slotStep_melodic hlive).symm

/-- If no slot's step reads the tables, the voices of a frame do not. -/
theorem State.renderVoices_withTables
    (hslot : ∀ t n, (s.withTables mem octave length).slotStep t n = s.slotStep t n) :
    (s.withTables mem octave length).renderVoices = s.renderVoices.withTables mem octave length := by
  obtain ⟨vs, hrender, hvoice⟩ := s.renderVoices_spec
  obtain ⟨vs', hrender', hvoice'⟩ := (s.withTables mem octave length).renderVoices_spec
  have hvs : vs' = vs :=
    voices_ext (s := { s.withTables mem octave length with voices := vs' }) (s' := { s with voices := vs })
      fun t n => by rw [hvoice', hvoice, hslot]
  rw [hrender, hrender', hvs]
  simp only [hslot]
  rfl

/-- A frame reads no table of a melodic track that has no LIVE slot, but its LENGTH where a tick is due. -/
theorem State.renderFrame_withTables {m : Melodic} (hram : SameRamBut m s (s.withTables mem octave length))
    (hother : ∀ m' : Melodic, m' ≠ m → octave[m'] = s.octave[m'] ∧ length[m'] = s.length[m'])
    (hlength : s.cd = 0 → length = s.length)
    (hsilent : ∀ n : Slot, (timerStep s.tinc (s.tickCheck.voice m.track n)).2 = false) :
    (s.withTables mem octave length).renderFrame = s.renderFrame.withTables mem octave length := by
  have f := s.tickCheck_frame
  have hram' : SameRamBut m s.tickCheck (s.tickCheck.withTables mem octave length) := by
    simpa only [SameRamBut, State.ramByte, State.withTables, f.mem, f.powerEpoch] using hram
  have hslot : ∀ t n, (s.tickCheck.withTables mem octave length).slotStep t n = s.tickCheck.slotStep t n := by
    intro t n
    rcases melodicOf_cases t with ⟨m', rfl, -⟩ | ⟨rfl, -⟩
    · by_cases hm : m' = m
      · subst hm
        exact State.slotStep_withTables_of_skip (f.tinc ▸ hsilent n)
      · obtain ⟨hoctave, hlen⟩ := hother m' hm
        exact State.slotStep_melodic_withTables hm hram' (by rw [f.octave, hoctave]) (by rw [f.length, hlen]) n
    · exact State.slotStep_percussion_withTables n
  rw [State.renderFrame, State.renderFrame, State.tickCheck_withTables hlength hram.noteRead,
    State.renderVoices_withTables hslot]
  generalize s.tickCheck.renderVoices = v
  rfl

end

/-- Settles O46: a slot that is not LIVE takes its timer step only, and a LIVE one reads the tables of its own track. -/
theorem silentTrackRamIsUnread : Obligations.SilentTrackRamIsUnread := by
  refine ⟨fun _ _ _ _ _ _ => State.slotStep_withTables_of_skip,
    fun s m mem octave length hr hram hother hlength hsilent => ⟨s.renderFrame, exec_frame_of_ready hr, ?_⟩⟩
  have hexec := exec_frame_of_ready (s := s.withTables mem octave length) hr
  have hframe := State.renderFrame_withTables (mem := mem) (octave := octave) (length := length) hram hother hlength
    hsilent
  exact hexec.trans (congrArg Host.Outcome.next hframe)

end Sys2Proof.Machine

/-! The exceptions family (spec/60_exceptions.md): no condition stops the block (R240), and the parameters are none of its
state (R48). -/

namespace Sys2Proof.Machine

/-! ## Completion, and the parameters (R48, R240) -/

/-- Having given parameters is a predicate that every part of a step keeps: stores write the configuration and RAM, and
reset writes the registers, of which the parameters are none (R48, R272). -/
theorem paramsEq_keptByStep (p : Params) : KeptByStep fun s => s.params = p where
  toKeptByPlay := .of_voices_unread (fun _ _ _ _ _ _ h => h) (fun _ _ _ h => h) (fun _ _ _ _ _ h => h)
    (fun s t h => (s.recomputeGains_params t).trans h) (fun s t q h => (s.setPan_params t q).trans h)
    (fun s c info h => (s.raiseError_params c info).trans h)
  store s a d _ h := by rwa [State.storeTarget_frame]
  arm s h := s.armInit_params.trans h
  disarm _ h := h
  clear s h := s.clearErrors_params.trans h
  reset _ h := h
  redraw _ _ h := h

/-- No instruction changes the parameters (R48). -/
theorem exec_params {i : Instr} {s u : State} (h : exec i s = .next u) : u.params = s.params :=
  (paramsEq_keptByStep s.params).exec rfl h

/-- No step changes the parameters, not even one of reset or power-on (R48, R272). -/
theorem step_params {s u : State} (h : step s = .next u) : u.params = s.params :=
  (paramsEq_keptByStep s.params).step rfl h

/-- Settles O54: every instruction and every step has a next state, and each keeps the parameters of the state it
started in. -/
theorem nothingEverStops : Obligations.NothingEverStops := by
  constructor
  · intro i s
    obtain ⟨u, hu⟩ := exec_next i s
    exact ⟨u, hu, exec_params hu⟩
  · intro s
    obtain ⟨u, hu⟩ := step_next s
    exact ⟨u, hu, step_params hu⟩

end Sys2Proof.Machine

/-! The reset family (spec/70_reset_and_hazards.md): the values that reset gives the registers (R271), what asserting it
leaves (R270, R272), the transactions it holds off (R270), and that a reset machine meets every invariant (R273). -/

namespace Sys2Proof.Machine

/-! ## The reset values (R271) -/

/-- Every register has its reset value, row by row of R271. -/
structure State.RegistersReset (s : State) : Prop where
  ready : s.ready = false
  errorFlag : ∀ c, s.errorFlag c = false
  errCause : s.errCause = 0
  errInfo : s.errInfo = 0
  sampleRate : s.sampleRate = 0
  tickMs : s.tickMs = 0
  repeatTick : s.repeatTick = 0
  endTick : s.endTick = 0
  recordCount : s.recordCount = 0
  melodic : ∀ m : Melodic, s.octave[m] = 0 ∧ s.length[m] = 0
  volume : ∀ t : Track, s.volume[t] = 0
  pos : s.pos = 0
  tinc : s.tinc = 0
  spt : s.spt = 0
  cd : s.cd = 0
  voice : ∀ (t : Track) (n : Slot), s.voice t n = Voice.silent
  multipliers : ∀ t : Track, s.vmix[t] = 0 ∧ s.vl[t] = 32768 ∧ s.vr[t] = 32768
  vmixLow : s.vmixLow = 0
  accL : s.accL = 0
  accR : s.accR = 0
  outL : s.outL = 0
  outR : s.outR = 0

/-- The reset of every kind: RAM, the reset line and the queue, which are no registers, may be any (R272). -/
theorem State.registersReset_resetWith (p : Params) (mem : List Host.Cell) (epoch : Nat) (line : Bool)
    (inbox : List HostEvent) :
    ({ State.resetWith p with mem := mem, powerEpoch := epoch, resetLine := line, inbox := inbox } :
      State).RegistersReset := by
  constructor
  case errorFlag => intro c; cases c <;> rfl
  case melodic => intro m; simp [State.resetWith]
  case volume => intro t; simp [State.resetWith]
  case voice => intro t n; simp [State.voice, State.resetWith]
  case multipliers => intro t; simp [State.resetWith]
  all_goals rfl

theorem State.registersReset_driveReset (s : State) : (s.driveReset true).RegistersReset :=
  State.registersReset_resetWith s.params s.mem s.powerEpoch true s.inbox

theorem State.registersReset_cyclePower (s : State) : s.cyclePower.RegistersReset :=
  State.registersReset_resetWith s.params [] (s.powerEpoch + 1) true s.inbox

theorem State.registersReset_reset : State.reset.RegistersReset :=
  State.registersReset_resetWith Config.params [] 0 false []

/-! ## Steps that assert reset (R270, R272) -/

theorem step_of_inbox_resetInput {s : State} {level : Bool} {rest : List HostEvent}
    (h : s.inbox = .resetInput level :: rest) :
    step s = .next (({ s.clearPorts with inbox := rest } : State).driveReset level) := by
  unfold step fetch
  rw [h]

theorem step_of_inbox_resetDuring {s : State} {x : BusTxn} {rest : List HostEvent}
    (h : s.inbox = .resetDuring x :: rest) :
    step s = .next (({ s.clearPorts with inbox := rest } : State).driveReset true) := by
  unfold step fetch
  rw [h]

/-- Asserting reset resets the registers and releases the ports; it keeps the parameters and the events still to come,
and RAM but for a power-on. -/
theorem step_of_assert {s : State} {ev : HostEvent} {rest : List HostEvent} (h : s.inbox = ev :: rest)
    (hev : ev = .resetInput true ∨ (∃ x, ev = .resetDuring x) ∨ ev = .powerOn) :
    ∃ u, step s = .next u ∧ u.RegistersReset ∧ (ev ≠ .powerOn → ∀ a, u.ramByte a = s.ramByte a) ∧
      u.params = s.params ∧ u.resetLine = true ∧ u.inbox = rest ∧ u.readData = none ∧ u.framePort = [] := by
  rcases hev with rfl | ⟨x, rfl⟩ | rfl
  · exact ⟨_, step_of_inbox_resetInput h, State.registersReset_driveReset _, fun _ _ => rfl, rfl, rfl, rfl, rfl, rfl⟩
  · exact ⟨_, step_of_inbox_resetDuring h, State.registersReset_driveReset _, fun _ _ => rfl, rfl, rfl, rfl, rfl, rfl⟩
  · exact ⟨_, step_of_inbox_powerOn h, State.registersReset_cyclePower _, fun hne => absurd rfl hne,
      rfl, rfl, rfl, rfl, rfl⟩

/-- Settles O6: each of the three events resets the registers, and only the power-on reaches RAM. -/
theorem resetSetsEveryRegister : Obligations.ResetSetsEveryRegister := by
  intro s ev rest h hev
  obtain ⟨u, hstep, r, hframe⟩ := step_of_assert h hev
  exact ⟨u, hstep, r.ready, r.errorFlag, r.errCause, r.errInfo, r.sampleRate, r.tickMs, r.repeatTick, r.endTick,
    r.recordCount, r.melodic, r.volume, r.pos, r.tinc, r.spt, r.cd, r.voice, r.multipliers, r.vmixLow, r.accL, r.accR,
    r.outL, r.outR, hframe⟩

/-! ## Transactions while reset is asserted (R270) -/

theorem step_of_inbox_bus_of_resetLine {s : State} {x : BusTxn} {rest : List HostEvent} (h : s.inbox = .bus x :: rest)
    (hr : s.resetLine = true) : step s = .next (({ s.clearPorts with inbox := rest } : State).ignoreTxn x) := by
  simp [step, fetch, State.clearPorts, h, hr]

/-- Settles O7: the step that takes a transaction under reset ignores it. -/
theorem resetHoldsOffTransactions : Obligations.ResetHoldsOffTransactions :=
  fun _ _ hr => ⟨fun _ h => step_of_inbox_bus_of_resetLine h hr, fun _ _ h => step_of_inbox_bus_of_resetLine h hr⟩

/-! ## The state after reset (R271, R273) -/

/-- The parameters of the machine are legal whatever an implementation chose (R10; log entry 1). -/
theorem config_params_valid : Config.params.Valid := by
  unfold Config.params
  split_ifs with hchosen
  · exact hchosen
  · decide

/-- STATUS reads 0 in configuration mode with no flag set (R68). -/
theorem State.statusWord_eq_zero {s : State} (hready : s.ready = false) (hflag : ∀ c, s.errorFlag c = false) :
    s.statusWord = 0 := by
  have haddr : s.errAddr = false := hflag .addr
  have hlock : s.errLock = false := hflag .lock
  have hcmd : s.errCmd = false := hflag .cmd
  have hcfg : s.errCfg = false := hflag .cfg
  have hpan : s.errPan = false := hflag .pan
  simp [State.statusWord, flagBit, hready, haddr, hlock, hcmd, hcfg, hpan]

/-- In configuration mode nothing is claimed of the multipliers that ARM latches. -/
theorem State.LatchLegal.of_not_ready {s : State} (hr : s.ready = false) : s.LatchLegal :=
  fun h => absurd (hr.symm.trans h) nofun

theorem State.RegistersReset.gainsLegal {s : State} (r : s.RegistersReset) : s.GainsLegal := by
  refine ⟨fun t => ?_, by simp [r.vmixLow]⟩
  obtain ⟨hvmix, hvl, hvr⟩ := r.multipliers t
  simp [hvmix, hvl, hvr]

theorem State.RegistersReset.panLegal {s : State} (r : s.RegistersReset) : s.PanLegal := by
  intro t
  obtain ⟨-, hvl, -⟩ := r.multipliers t
  exact .inl hvl

/-- With its registers reset the block meets every invariant that speaks of registers: the multipliers are at unity or
0, the error record is empty, and the rest is claimed of a playing block only. -/
theorem State.RegistersReset.legal {s : State} (r : s.RegistersReset) (hparams : s.params.Valid)
    (hmem : s.MemoryLegal) : s.Legal := by
  obtain ⟨-, hmelodic, hdrum⟩ := State.VoicesLegal.of_not_ready hparams r.ready
  exact ⟨hparams, hmem, r.gainsLegal, r.panLegal, .of_not_ready r.ready, .of_not_ready r.ready, hmelodic, hdrum,
    .inl ⟨r.errCause, r.errInfo, r.errorFlag⟩, .of_not_ready r.ready⟩

/-- No cell of RAM has been written when the machine comes up (R272). -/
theorem State.reset_memoryLegal : State.reset.MemoryLegal := ⟨rfl, nofun⟩

/-- Settles O9: the machine comes up with its registers reset, its parameters legal and no cell written. -/
theorem resetStateIsLegal : Obligations.ResetStateIsLegal := by
  have r := State.registersReset_reset
  exact ⟨r.legal config_params_valid State.reset_memoryLegal, r.ready, State.statusWord_eq_zero r.ready r.errorFlag,
    r.errCause, r.errInfo, r.sampleRate, r.tickMs, r.repeatTick, r.endTick, r.recordCount, r.melodic, r.volume, r.pos,
    r.tinc, r.spt, r.cd, r.voice, r.multipliers, r.vmixLow, r.accL, r.accR, r.outL, r.outR⟩

end Sys2Proof.Machine
